-- ==== Sys2Proof/Word.lean ====
section
/-! DEFINITION. The widths PKTHP gives its data: bytes of the frame buffer and 32-bit registers
(10_state R12, R46; 20_memory R50). -/

namespace Sys2Proof

/-- One byte of the frame buffer (10_state R46). -/
abbrev Byte := BitVec 8

/-- One register or one command word (10_state R12, 30_encoding R65). -/
abbrev Word := BitVec 32

/-- A host-bus byte address (20_memory R50). -/
abbrev HostAddr := BitVec 16

end Sys2Proof
end

