-- ==== Sys2Proof/Config.lean ====
section
/-! DEFINITION. The parameters of one PKTHP instance (00_scope R5) and the free values: what the spec
leaves open. Each opaque constant has no body, so no proof can see a value of it. -/

namespace Sys2Proof.Config

/-- The free choice behind `BUF_SIZE`. -/
opaque bufSizeChoice : Nat

/-- The least legal `BUF_SIZE` (00_scope R5). -/
def minBufSize : Nat := 1524

/-- `BUF_SIZE` (00_scope R5, decision D4): a multiple of 4 from 1524 to 61440.
There are (61440 - 1524) / 4 + 1 = 14980 such sizes, and each is reached by some value of the free
choice, so a claim about `bufSize` is a claim about every legal size (log entry 1). -/
def bufSize : Nat := minBufSize + 4 * (bufSizeChoice % 14980)

/-- A partial map from EtherType values to class codes. -/
abbrev EtypeTable := BitVec 16 → Option (BitVec 8)

/-- The free choice behind `ETYPE_TABLE`. -/
opaque etypeChoice : BitVec 16 → Option (BitVec 8)

/-- The domain 41_ethertype R85 gives `ETYPE_TABLE`: values from 1536 on, less the four fixed codes. -/
def etypeDomain (v : BitVec 16) : Bool :=
  decide (1536 ≤ v.toNat) &&
    !(v == 0x0800#16 || v == 0x0806#16 || v == 0x8100#16 || v == 0x86DD#16)

/-- The class codes 41_ethertype R85 and 30_encoding R78 give its entries: 7 to 254. -/
def etypeCodeLegal (c : BitVec 8) : Bool := decide (7 ≤ c.toNat) && decide (c.toNat ≤ 254)

/-- A partial map cut down to the domain and the codes of 41_ethertype R85. -/
def restrictEtypeTable (t : EtypeTable) : EtypeTable := fun v =>
  if etypeDomain v then (t v).filter etypeCodeLegal else none

/-- `ETYPE_TABLE` (00_scope R5, 41_ethertype R85, decision D23): any partial map with the domain and
the codes R85 allows (log entry 2). -/
def etypeTable : EtypeTable := restrictEtypeTable etypeChoice

/-- The free choice behind `MAX_LATENCY`. -/
opaque maxLatencyChoice : Nat

/-- `MAX_LATENCY` in clock cycles (00_scope R5, decision D20): finite and at least 1.
70_reset_and_hazards R137 tells a model to take the commit as a step with no upper bound in steps, so
no definition reads this parameter (log entry 3). -/
def maxLatency : Nat := maxLatencyChoice + 1

/-- Free value: what a result register returns when the host reads it while BUSY, drawn afresh for
each such read, which the first argument numbers (10_state R48; log entry 7). -/
opaque busyRead : Nat → Word

/-- Free value: what a frame-buffer byte holds from reset until the host writes it. The first argument
numbers the reset, the second is the byte's offset (10_state R46, 70_reset_and_hazards R128; log entry
8). -/
opaque resetByte : Nat → Nat → Byte

end Sys2Proof.Config
end

