-- ==== Sys2Proof/Machine/State.lean ====
section
/-! DEFINITION. Everything the spec gives PKTHP to remember (10_state R10 to R49), the inputs still to
come, and the state after reset (70_reset_and_hazards R129). Each register is held as the fields its
table names; a bit no table names is not stored, since it reads as zero and ignores writes (R12). -/

namespace Sys2Proof.Machine

/-- The engine sequencer (10_state R11). -/
inductive Eng where
  | idle
  | busy
  deriving DecidableEq, Repr

/-- Error causes (60_exceptions R114). -/
inductive ErrCode where
  | truncatedHeader
  | invalidHeaderLength
  | badWindow
  | illegalCmd
  deriving DecidableEq, Repr

/-- Where an error came from (60_exceptions R115). -/
inductive Layer where
  | eth
  | ipv4
  | tcp
  | udp
  | icmp
  | cmd
  deriving DecidableEq, Repr

/-- `Ok(f)` and `Err(code, layer)`: the two outcomes of a parse function (00_scope R8). -/
inductive Parsed (α : Type) where
  | ok (f : α)
  | err (code : ErrCode) (layer : Layer)
  deriving DecidableEq, Repr

/-- The Ethernet result registers (10_state R22 to R26). -/
structure EthGroup where
  /-- `ETH_DST_HI[15:0]`. -/
  dstHi : BitVec 16
  /-- `ETH_DST_LO`. -/
  dstLo : Word
  /-- `ETH_SRC_HI[15:0]`. -/
  srcHi : BitVec 16
  /-- `ETH_SRC_LO`. -/
  srcLo : Word
  /-- `ETH_TYPE[15:0]`. -/
  ethertype : BitVec 16
  /-- `ETH_TYPE[23:16]`. -/
  etypeClass : BitVec 8
  /-- `ETH_TYPE[24]`. -/
  vlanPresent : Bool
  /-- `ETH_FRAME_LEN`. -/
  frameLen : Word
  /-- `ETH_PAY_OFF`. -/
  payOff : Word
  /-- `ETH_PAY_LEN`. -/
  payLen : Word
  deriving DecidableEq, Repr

/-- The IPv4 result registers (10_state R27 to R34). -/
structure IpGroup where
  /-- `IP_W0[3:0]`. -/
  version : BitVec 4
  /-- `IP_W0[13:8]`, in bytes (90_conflicts C3). -/
  ihlBytes : BitVec 6
  /-- `IP_W0[21:16]`. -/
  dscp : BitVec 6
  /-- `IP_W0[25:24]`. -/
  ecn : BitVec 2
  /-- `IP_W1[15:0]`. -/
  totalLen : BitVec 16
  /-- `IP_W1[31:16]`. -/
  ident : BitVec 16
  /-- `IP_W2[12:0]`. -/
  fragOff : BitVec 13
  /-- `IP_W2[18:16]`. -/
  flags : BitVec 3
  /-- `IP_W3[7:0]`. -/
  ttl : BitVec 8
  /-- `IP_W3[15:8]`. -/
  proto : BitVec 8
  /-- `IP_W3[31:16]`. -/
  hdrCsum : BitVec 16
  /-- `IP_W4[3:0]`. -/
  protoClass : BitVec 4
  /-- `IP_W4[8]`. -/
  optPresent : Bool
  /-- `IP_SRC`. -/
  src : Word
  /-- `IP_DST`. -/
  dst : Word
  /-- `IP_OPT_OFF`. -/
  optOff : Word
  /-- `IP_OPT_LEN`. -/
  optLen : Word
  /-- `IP_PAY_OFF`. -/
  payOff : Word
  /-- `IP_PAY_LEN`. -/
  payLen : Word
  deriving DecidableEq, Repr

/-- The TCP result registers (10_state R35 to R40). -/
structure TcpGroup where
  /-- `TCP_PORTS[31:16]`. -/
  srcPort : BitVec 16
  /-- `TCP_PORTS[15:0]`. -/
  dstPort : BitVec 16
  /-- `TCP_SEQ`. -/
  seqNum : Word
  /-- `TCP_ACK`. -/
  ackNum : Word
  /-- `TCP_CTL[7:0]`. -/
  flags : BitVec 8
  /-- `TCP_CTL[8]`. -/
  ns : BitVec 1
  /-- `TCP_CTL[9]`. -/
  optPresent : Bool
  /-- `TCP_CTL[19:16]`. -/
  dataOff : BitVec 4
  /-- `TCP_CTL[29:24]`. -/
  hdrLen : BitVec 6
  /-- `TCP_WIN_CSUM[31:16]`. -/
  window : BitVec 16
  /-- `TCP_WIN_CSUM[15:0]`. -/
  csum : BitVec 16
  /-- `TCP_URG[15:0]`. -/
  urgPtr : BitVec 16
  /-- `TCP_PAY_OFF`. -/
  payOff : Word
  /-- `TCP_PAY_LEN`. -/
  payLen : Word
  deriving DecidableEq, Repr

/-- The UDP result registers (10_state R41 to R43). -/
structure UdpGroup where
  /-- `UDP_PORTS[31:16]`. -/
  srcPort : BitVec 16
  /-- `UDP_PORTS[15:0]`. -/
  dstPort : BitVec 16
  /-- `UDP_LEN_CSUM[31:16]`, the declared length. -/
  length : BitVec 16
  /-- `UDP_LEN_CSUM[15:0]`. -/
  csum : BitVec 16
  /-- `UDP_PAY_OFF`. -/
  payOff : Word
  /-- `UDP_PAY_LEN`. -/
  payLen : Word
  deriving DecidableEq, Repr

/-- The ICMP result registers (10_state R44, R45). -/
structure IcmpGroup where
  /-- `ICMP_W0[7:0]`. -/
  icmpType : BitVec 8
  /-- `ICMP_W0[15:8]`. -/
  code : BitVec 8
  /-- `ICMP_W0[31:16]`. -/
  csum : BitVec 16
  /-- `ICMP_W1[4:0]`. -/
  typeClass : BitVec 5
  deriving DecidableEq, Repr

/-- Every bit of the group's registers is 0. -/
def EthGroup.zero : EthGroup := ⟨0, 0, 0, 0, 0, 0, false, 0, 0, 0⟩

/-- Every bit of the group's registers is 0. -/
def IpGroup.zero : IpGroup := ⟨0, 0, 0, 0, 0, 0, 0, 0, 0, 0, 0, 0, false, 0, 0, 0, 0, 0, 0⟩

/-- Every bit of the group's registers is 0. -/
def TcpGroup.zero : TcpGroup := ⟨0, 0, 0, 0, 0, 0, false, 0, 0, 0, 0, 0, 0, 0⟩

/-- Every bit of the group's registers is 0. -/
def UdpGroup.zero : UdpGroup := ⟨0, 0, 0, 0, 0, 0⟩

/-- Every bit of the group's registers is 0. -/
def IcmpGroup.zero : IcmpGroup := ⟨0, 0, 0, 0⟩

/-- The `VALID` register (10_state R20). -/
structure Valid where
  /-- Bit 0. -/
  eth : Bool
  /-- Bit 1. -/
  ip : Bool
  /-- Bit 2. -/
  tcp : Bool
  /-- Bit 3. -/
  udp : Bool
  /-- Bit 4. -/
  icmp : Bool
  /-- Bit 5, `CLASS`. -/
  cls : Bool
  deriving DecidableEq, Repr

/-- The result registers (10_state R48): `CLASS_RES` (R19), `VALID` (R20) and the five groups. -/
structure Results where
  /-- `CLASS_RES.CODE`. -/
  classRes : BitVec 8
  /-- `VALID`. -/
  valid : Valid
  eth : EthGroup
  ip : IpGroup
  tcp : TcpGroup
  udp : UdpGroup
  icmp : IcmpGroup
  deriving DecidableEq, Repr

/-- "every result register <- 0" (30_encoding R71). -/
def Results.zero : Results :=
  ⟨0, ⟨false, false, false, false, false, false⟩, .zero, .zero, .zero, .zero, .zero⟩

/-- What an `Ok` outcome of a command carries: one record per result group it fills (30_encoding R70). -/
structure Groups where
  eth : Option EthGroup := none
  ip : Option IpGroup := none
  tcp : Option TcpGroup := none
  udp : Option UdpGroup := none
  icmp : Option IcmpGroup := none
  cls : Option (BitVec 8) := none
  deriving DecidableEq, Repr

/-- The frame buffer's bytes that the host has written since reset: offsets strictly rising. An offset
that is not listed reads as "nothing written since reset" (log entry 8). -/
abbrev Memory := List Host.Cell

/-- The widths a host may put on the bus. The bus has 8-bit and 32-bit accesses (20_memory R50); a host
that issues a 16-bit one gets the behaviour of an illegal access (R57). -/
inductive Width where
  | w8
  | w16
  | w32
  deriving DecidableEq, Repr

/-- One host-bus access: `HostRead(addr, w)` or `HostWrite(addr, w, v)` (00_scope R8). An 8-bit write
carries its byte in data bits 7:0 (20_memory R54). -/
inductive Access where
  | read (addr : HostAddr) (w : Width)
  | write (addr : HostAddr) (w : Width) (v : Word)
  deriving DecidableEq, Repr

/-- What the outside world can do to PKTHP. -/
inductive Action where
  /-- One bus access. -/
  | access (a : Access)
  /-- The pseudo-instruction `wait` of 30_encoding R83. `polls` is how many of its `STATUS` reads may
  still find `BUSY = 1`: after that many the engine commits (log entry 14). -/
  | wait (polls : Nat)
  /-- The reset input goes to this level (70_reset_and_hazards R128). -/
  | rst (level : Bool)
  deriving DecidableEq, Repr

/-- One entry of the agenda. `late` says which agent moves first when the entry meets a command in
flight: `true`, the engine commits and the action comes after; `false`, the action comes before the
commit (70_reset_and_hazards R137; log entry 4). -/
structure Input where
  late : Bool
  action : Action
  deriving DecidableEq, Repr

/-- The state of one PKTHP instance. -/
structure State where
  /-- `ENG` (10_state R11), which is also `STATUS.BUSY` (R14). -/
  eng : Eng
  /-- `LOP`, the latched command word (R49). -/
  lop : Word
  /-- `LOFF` (R49). -/
  loff : Word
  /-- `LLEN` (R49). -/
  llen : Word
  /-- `LARG` (R49). -/
  larg : BitVec 16
  /-- `STATUS.DONE`, bit 1 (R14). -/
  done : Bool
  /-- `STATUS.ERR`, bits 7:4 (R14). -/
  err : BitVec 4
  /-- `STATUS.ERR_LAYER`, bits 10:8 (R14). -/
  errLayer : BitVec 3
  /-- `STATUS.CMD_IGNORED`, bit 16 (R14). -/
  cmdIgnored : Bool
  /-- `STATUS.WRITE_IGNORED`, bit 17 (R14). -/
  writeIgnored : Bool
  /-- `STATUS.ACC_ERR`, bit 18 (R14). -/
  accErr : Bool
  /-- `CTRL.IRQ_EN`, bit 0 (R15). -/
  irqEn : Bool
  /-- `IN_OFF` (R16). -/
  inOff : Word
  /-- `IN_LEN` (R17). -/
  inLen : Word
  /-- `CLASS_ARG.ARG`, bits 15:0 (R18). -/
  classArg : BitVec 16
  /-- The result registers (R19, R20, R22 to R45). -/
  results : Results
  /-- The frame buffer `B` (R46): its bytes written since reset. -/
  buf : Memory
  /-- The level of the reset input, `true` while asserted (70_reset_and_hazards R128). -/
  rst : Bool
  /-- The MODEL's own field: what the outside world does next, oldest first (log entry 4). -/
  agenda : List Input
  /-- The MODEL's own field: what the last host read returned (log entry 6). -/
  rdata : Word
  /-- The MODEL's own field: how many free values `Config.busyRead` has given (log entry 7). -/
  draws : Nat
  /-- The MODEL's own field: which draw `Config.resetByte` of the buffer is in force (log entry 8). -/
  resets : Nat
  deriving DecidableEq, Repr

/-- The machine right after reset (70_reset_and_hazards R129), `rst` released and no input waiting. -/
def State.reset : State where
  eng := .idle
  lop := 0
  loff := 0
  llen := 0
  larg := 0
  done := false
  err := 0
  errLayer := 0
  cmdIgnored := false
  writeIgnored := false
  accErr := false
  irqEn := false
  inOff := 0
  inLen := 0
  classArg := 0
  results := .zero
  buf := []
  rst := false
  agenda := []
  rdata := 0
  draws := 0
  resets := 0

/-- Why the machine stops with a fault. It has NO constructor: "every command completes, and every
access has a defined effect" (93_implementation_defined), so nothing raises a fault, and that is safe:
no behaviour of PKTHP is left out by it (log entry 16). -/
inductive Fault where
  deriving DecidableEq, Repr

/-- Why a command is refused. -/
inductive Refusal where
  /-- Raised by an arm of `exec` whose instruction has no meaning yet; no arm raises it. It would be
  safe: the machine stops where PKTHP goes on. -/
  | notModelled (mnemonic : String)
  deriving DecidableEq, Repr

end Sys2Proof.Machine
end

