-- ==== Sys2Proof/Machine/Flags.lean ====
section
/-! DEFINITION. The codes of errors and layers (60_exceptions R114, R115), the words of `STATUS`, `CTRL`
and `VALID` (10_state R14, R15, R20), the write-1-to-clear rule (00_scope R9) and the interrupt output
(10_state R47). -/

namespace Sys2Proof.Machine

/-- The register whose bits from `lo` up hold `x` and whose other bits are 0. -/
def place {w : Nat} (x : BitVec w) (lo : Nat) : Word := x.setWidth 32 <<< lo

/-- A one-bit field. -/
def flag (b : Bool) (lo : Nat) : Word := place (BitVec.ofBool b) lo

/-- `STATUS.ERR` codes (60_exceptions R114). -/
def ErrCode.code : ErrCode → BitVec 4
  | .truncatedHeader => 1
  | .invalidHeaderLength => 2
  | .badWindow => 3
  | .illegalCmd => 4

/-- `STATUS.ERR_LAYER` codes (60_exceptions R115). -/
def Layer.code : Layer → BitVec 3
  | .eth => 1
  | .ipv4 => 2
  | .tcp => 3
  | .udp => 4
  | .icmp => 5
  | .cmd => 7

/-- `STATUS.BUSY` is 1 while `ENG = BUSY` (10_state R14). -/
def State.busy (s : State) : Bool := s.eng == .busy

/-- `STATUS` as the host reads it (10_state R14). -/
def statusWord (s : State) : Word :=
  flag s.busy 0 ||| flag s.done 1 ||| place s.err 4 ||| place s.errLayer 8 |||
    flag s.cmdIgnored 16 ||| flag s.writeIgnored 17 ||| flag s.accErr 18

/-- A host write of `v` to `STATUS`: each 1 written to a `W1C` bit clears it, and nothing else changes
(00_scope R9, 10_state R14). -/
def writeStatus (v : Word) (s : State) : State :=
  { s with
    done := s.done && !v.getLsbD 1
    cmdIgnored := s.cmdIgnored && !v.getLsbD 16
    writeIgnored := s.writeIgnored && !v.getLsbD 17
    accErr := s.accErr && !v.getLsbD 18 }

/-- `CTRL` as the host reads it (10_state R15). -/
def ctrlWord (s : State) : Word := flag s.irqEn 0

/-- `VALID` as the host reads it (10_state R20). -/
def Valid.word (v : Valid) : Word :=
  flag v.eth 0 ||| flag v.ip 1 ||| flag v.tcp 2 ||| flag v.udp 3 ||| flag v.icmp 4 ||| flag v.cls 5

/-- The interrupt output: `irq = STATUS.DONE AND CTRL.IRQ_EN` (10_state R47). -/
def irq (s : State) : Bool := s.done && s.irqEn

end Sys2Proof.Machine
end

