-- ==== Sys2Proof/Machine/Ops.lean ====
section
/-! DEFINITION. The shared operations: the frame buffer and the engine's reads of it, acceptance and
commit of a command, the error entry, and reset. -/

namespace Sys2Proof.Machine

/-! ### The frame buffer -/

/-- What an offset the buffer does not list reads as: nothing written since reset (log entry 8). -/
def Memory.unlisted : Option Byte := none

/-- The byte written last at offset `a` since reset, if there is one. -/
def Memory.read : Memory → Nat → Option Byte
  | [], _ => Memory.unlisted
  | (k, b) :: m, a => if a = k then some b else Memory.read m a

/-- `B[a] <- b`, keeping the offsets strictly rising. -/
def Memory.write : Memory → Nat → Byte → Memory
  | [], a, b => [(a, b)]
  | (k, c) :: m, a, b =>
    if a < k then (a, b) :: (k, c) :: m
    else if a = k then (a, b) :: m
    else (k, c) :: Memory.write m a b

/-- The canonical form of the buffer: offsets strictly rising, none listed with what an unlisted offset
reads as, and all inside the buffer (10_state R46). -/
abbrev Memory.wf (m : Memory) : Prop :=
  m.Pairwise (fun x y => x.1 < y.1) ∧ (∀ c ∈ m, some c.2 ≠ Memory.unlisted) ∧
    ∀ c ∈ m, c.1 < Config.bufSize

/-- Whether `x` is more than `BUF_SIZE`. The first test decides it without the parameter wherever every
legal size agrees (00_scope R5). -/
def exceedsBuffer (x : Nat) : Bool :=
  decide (Config.minBufSize < x) && decide (Config.bufSize < x)

/-- `B[a]` (00_scope R8, 10_state R46): the byte written last, else the unknown value the byte has held
since reset. No rule reads it at an offset outside the buffer (log entry 9). -/
def byteAt (s : State) (a : Nat) : Byte := (s.buf.read a).getD (Config.resetByte s.resets a)

/-- `B[a] <- b` for one byte. -/
def writeByte (a : Nat) (b : Byte) (s : State) : State := { s with buf := s.buf.write a b }

/-- `MemRead(a, 1)` on the buffer's contents `B` (20_memory R58). -/
def memRead8 (B : Nat → Byte) (a : Nat) : BitVec 8 := B a

/-- `MemRead(a, 2)`: big-endian (20_memory R58). -/
def memRead16 (B : Nat → Byte) (a : Nat) : BitVec 16 := B a ++ B (a + 1)

/-- `MemRead(a, 4)`: big-endian (20_memory R58). -/
def memRead32 (B : Nat → Byte) (a : Nat) : BitVec 32 := B a ++ B (a + 1) ++ B (a + 2) ++ B (a + 3)

/-! ### The life of a command -/

/-- Acceptance of the command word `w` (30_encoding R68). -/
def accept (w : Word) (s : State) : State :=
  { s with
    lop := w
    loff := s.inOff
    llen := s.inLen
    larg := s.classArg
    eng := .busy
    done := false
    err := 0
    errLayer := 0 }

/-- The result registers that an `Ok` outcome leaves: every register 0, then each group's fields and
its `VALID` bit (30_encoding R71). -/
def Results.ofGroups (g : Groups) : Results where
  classRes := g.cls.getD 0
  valid := ⟨g.eth.isSome, g.ip.isSome, g.tcp.isSome, g.udp.isSome, g.icmp.isSome, g.cls.isSome⟩
  eth := g.eth.getD .zero
  ip := g.ip.getD .zero
  tcp := g.tcp.getD .zero
  udp := g.udp.getD .zero
  icmp := g.icmp.getD .zero

/-- The commit of an `Ok` outcome (30_encoding R71). -/
def commitOk (g : Groups) (s : State) : State :=
  { s with results := .ofGroups g, err := 0, errLayer := 0, eng := .idle, done := true }

/-- The commit of an `Err` outcome, which is PKTHP's error entry (30_encoding R71, 60_exceptions R119):
no vector, no saved context, no mode change. There is no return from it (R120). -/
def commitErr (code : ErrCode) (layer : Layer) (s : State) : State :=
  { s with results := .zero, err := code.code, errLayer := layer.code, eng := .idle, done := true }

/-- `Commit(outcome)`: the atomic completion of a command (30_encoding R71). -/
def commit (outcome : Parsed Groups) (s : State) : State :=
  match outcome with
  | .ok g => commitOk g s
  | .err code layer => commitErr code layer s

/-- The commit of an illegal command word, which reads no buffer byte (30_encoding R67). -/
def commitIllegal (s : State) : State := commit (.err .illegalCmd .cmd) s

/-- The command word the engine executes next: the one it latched (10_state R49). -/
def fetchCommand (s : State) : Word := s.lop

/-! ### Reset -/

/-- `rst` goes from released to asserted (70_reset_and_hazards R128): every register at its reset value,
a command in flight abandoned without a commit, a fresh draw of every buffer byte. The outside world's
agenda, the last read data and the count of free values are no part of the block. -/
def enterReset (s : State) : State :=
  { State.reset with
    rst := true
    agenda := s.agenda
    rdata := s.rdata
    draws := s.draws
    resets := s.resets + 1 }

/-- The reset input takes the level `level` (70_reset_and_hazards R128; log entry 11). -/
def setRst (level : Bool) (s : State) : State :=
  if level && !s.rst then enterReset s else { s with rst := level }

end Sys2Proof.Machine
end

