-- ==== Sys2Proof/Machine/Operands.lean ====
section
/-! DEFINITION. The operands of commands (30_encoding R81) and the window check that every parse command
makes first (R70). -/

namespace Sys2Proof.Machine

/-- `v = LARG[15:0]`, the operand of CLASSIFY_ETYPE (30_encoding R81). -/
def etypeOperand (s : State) : BitVec 16 := s.larg

/-- `LARG[7:0]`, the operand of CLASSIFY_IPPROTO and CLASSIFY_ICMPTYPE; `LARG[15:8]` is ignored
(30_encoding R81). -/
def byteOperand (s : State) : BitVec 8 := s.larg.extractLsb' 0 8

/-- The outcome of a parse command whose function is `f`: BAD_WINDOW when `LOFF + LLEN > BUF_SIZE` in
unbounded arithmetic, else `f` on the buffer and the window `(LOFF, LLEN)` (30_encoding R70, R81). -/
def onWindow (f : (Nat → Byte) → Nat → Nat → Parsed Groups) (s : State) : Parsed Groups :=
  if exceedsBuffer (s.loff.toNat + s.llen.toNat) then .err .badWindow .cmd
  else f (byteAt s) s.loff.toNat s.llen.toNat

/-- A buffer offset or length as a register holds it. Every such value is at most `BUF_SIZE`, so it fits
(00_scope R7). -/
def toReg (n : Nat) : Word := BitVec.ofNat 32 n

end Sys2Proof.Machine
end

