-- ==== Sys2Proof/Machine/Ethertype.lean ====
section
/-! DEFINITION. The EtherType classifier and CLASSIFY_ETYPE (41_ethertype). -/

namespace Sys2Proof.Machine

/-- `ClassifyEtherType(v)` with `ETYPE_TABLE` as an argument (41_ethertype R85, 30_encoding R78). -/
def classifyEtherType (table : Config.EtypeTable) (v : BitVec 16) : BitVec 8 :=
  if v.toNat ≤ 1500 then 1
  else if v.toNat ≤ 1535 then 2
  else if v = 0x0800#16 then 3
  else if v = 0x0806#16 then 4
  else if v = 0x8100#16 then 5
  else if v = 0x86DD#16 then 6
  else match table v with
    | some c => c
    | none => 0

/-- The spec's default `ETYPE_TABLE` (41_ethertype R87). It is not normative: no meaning uses it, and
the test vectors marked "(default table)" are checked against it. -/
def defaultEtypeTable : Config.EtypeTable := fun v =>
  match v.toNat with
  | 0x8847 => some 7
  | 0x8848 => some 8
  | 0x8863 => some 9
  | 0x8864 => some 10
  | 0x88CC => some 11
  | 0x88F7 => some 12
  | _ => none

/-- `CmdClassifyEtype(arg)` (41_ethertype R86). -/
def cmdClassifyEtype (v : BitVec 16) : Parsed Groups :=
  .ok { cls := some (classifyEtherType Config.etypeTable v) }

/-- CLASSIFY_ETYPE (41_ethertype R86): no window check, no buffer read. -/
def execClassifyEtype (s : State) : Host.Outcome State Fault Refusal :=
  .next (commit (cmdClassifyEtype (etypeOperand s)) s)

end Sys2Proof.Machine
end

