-- ==== Sys2Proof/Machine/Ethernet.lean ====
section
/-! DEFINITION. The Ethernet frame parser and PARSE_ETH (42_ethernet). -/

namespace Sys2Proof.Machine

/-- The record `ParseEth` returns once it knows the EtherType, whether a tag is present and how long the
header is (42_ethernet R88). -/
def ethRecord (B : Nat → Byte) (o n : Nat) (vlan : Bool) (et : BitVec 16) (hl : Nat) : EthGroup where
  dstHi := memRead16 B (o + 0)
  dstLo := memRead32 B (o + 2)
  srcHi := memRead16 B (o + 6)
  srcLo := memRead32 B (o + 8)
  ethertype := et
  etypeClass := classifyEtherType Config.etypeTable et
  vlanPresent := vlan
  frameLen := toReg n
  payOff := toReg (o + hl)
  payLen := toReg (n - hl)

/-- `ParseEth(o, n)` (42_ethernet R88; headers 30_encoding R72, R73). -/
def parseEth (B : Nat → Byte) (o n : Nat) : Parsed EthGroup :=
  if n < 14 then .err .truncatedHeader .eth
  else if memRead16 B (o + 12) = 0x8100#16 then
    if n < 18 then .err .truncatedHeader .eth
    else .ok (ethRecord B o n true (memRead16 B (o + 16)) 18)
  else .ok (ethRecord B o n false (memRead16 B (o + 12)) 14)

/-- `CmdParseEth(o, n)` (42_ethernet R89). -/
def cmdParseEth (B : Nat → Byte) (o n : Nat) : Parsed Groups :=
  match parseEth B o n with
  | .err c l => .err c l
  | .ok e => .ok { eth := some e }

/-- PARSE_ETH (42_ethernet R89). -/
def execParseEth (s : State) : Host.Outcome State Fault Refusal :=
  .next (commit (onWindow cmdParseEth s) s)

end Sys2Proof.Machine
end

