-- ==== Sys2Proof/Machine/Icmp.lean ====
section
/-! DEFINITION. The ICMP header extractor, the type table, PARSE_ICMP and CLASSIFY_ICMPTYPE (46_icmp). -/

namespace Sys2Proof.Machine

/-- `ClassifyICMPType(t)` (46_icmp R105, 30_encoding R80). -/
def classifyIcmpType (t : BitVec 8) : BitVec 5 :=
  match t.toNat with
  | 0 => 1
  | 3 => 2
  | 4 => 3
  | 5 => 4
  | 8 => 5
  | 9 => 6
  | 10 => 7
  | 11 => 8
  | 12 => 9
  | 13 => 10
  | 14 => 11
  | 15 => 12
  | 16 => 13
  | 17 => 14
  | 18 => 15
  | 30 => 16
  | 42 => 17
  | 43 => 18
  | _ => 0

/-- The record `ParseICMP` returns (46_icmp R106). -/
def icmpRecord (B : Nat → Byte) (o : Nat) : IcmpGroup where
  icmpType := memRead8 B (o + 0)
  code := memRead8 B (o + 1)
  csum := memRead16 B (o + 2)
  typeClass := classifyIcmpType (memRead8 B (o + 0))

/-- `ParseICMP(o, n)` (46_icmp R106): the bytes after byte 3 are not read. -/
def parseIcmp (B : Nat → Byte) (o n : Nat) : Parsed IcmpGroup :=
  if n < 4 then .err .truncatedHeader .icmp else .ok (icmpRecord B o)

/-- `CmdParseICMP(o, n)` (46_icmp R107). -/
def cmdParseIcmp (B : Nat → Byte) (o n : Nat) : Parsed Groups :=
  match parseIcmp B o n with
  | .err c l => .err c l
  | .ok m => .ok { icmp := some m }

/-- PARSE_ICMP (46_icmp R107). -/
def execParseIcmp (s : State) : Host.Outcome State Fault Refusal :=
  .next (commit (onWindow cmdParseIcmp s) s)

/-- `CmdClassifyICMP(arg)` (46_icmp R108). -/
def cmdClassifyIcmptype (t : BitVec 8) : Parsed Groups :=
  .ok { cls := some ((classifyIcmpType t).setWidth 8) }

/-- CLASSIFY_ICMPTYPE (46_icmp R108): no window check, no buffer read. -/
def execClassifyIcmptype (s : State) : Host.Outcome State Fault Refusal :=
  .next (commit (cmdClassifyIcmptype (byteOperand s)) s)

end Sys2Proof.Machine
end

