-- ==== Sys2Proof/Machine/Ipv4.lean ====
section
/-! DEFINITION. The IPv4 header parser, the protocol table, PARSE_IPV4 and CLASSIFY_IPPROTO (43_ipv4). -/

namespace Sys2Proof.Machine

/-- `ClassifyIPProto(p)` (43_ipv4 R93, 30_encoding R79). -/
def classifyIpProto (p : BitVec 8) : BitVec 4 :=
  match p.toNat with
  | 1 => 1
  | 2 => 2
  | 6 => 3
  | 17 => 4
  | 41 => 5
  | 89 => 6
  | 132 => 7
  | _ => 0

/-- The header length in bytes that byte 0 declares: its low nibble times 4 (43_ipv4 R92). -/
def ihlOf (B : Nat → Byte) (o : Nat) : Nat := ((memRead8 B (o + 0)).extractLsb' 0 4).toNat * 4

/-- The total length that bytes 2 to 3 declare (43_ipv4 R92). -/
def totalLenOf (B : Nat → Byte) (o : Nat) : Nat := (memRead16 B (o + 2)).toNat

/-- The record `ParseIPv4` returns once its checks have passed (43_ipv4 R92). -/
def ipRecord (B : Nat → Byte) (o : Nat) : IpGroup where
  version := (memRead8 B (o + 0)).extractLsb' 4 4
  ihlBytes := BitVec.ofNat 6 (ihlOf B o)
  dscp := (memRead8 B (o + 1)).extractLsb' 2 6
  ecn := (memRead8 B (o + 1)).extractLsb' 0 2
  totalLen := memRead16 B (o + 2)
  ident := memRead16 B (o + 4)
  fragOff := (memRead16 B (o + 6)).extractLsb' 0 13
  flags := (memRead16 B (o + 6)).extractLsb' 13 3
  ttl := memRead8 B (o + 8)
  proto := memRead8 B (o + 9)
  hdrCsum := memRead16 B (o + 10)
  protoClass := classifyIpProto (memRead8 B (o + 9))
  optPresent := decide (20 < ihlOf B o)
  src := memRead32 B (o + 12)
  dst := memRead32 B (o + 16)
  optOff := if 20 < ihlOf B o then toReg (o + 20) else 0
  optLen := if 20 < ihlOf B o then toReg (ihlOf B o - 20) else 0
  payOff := toReg (o + ihlOf B o)
  payLen := toReg (totalLenOf B o - ihlOf B o)

/-- `ParseIPv4(o, n)`: the checks in the order of 43_ipv4 R92 and R96 (90_conflicts C1, C2). -/
def parseIpv4 (B : Nat → Byte) (o n : Nat) : Parsed IpGroup :=
  if n < 20 then .err .truncatedHeader .ipv4
  else if ihlOf B o < 20 then .err .invalidHeaderLength .ipv4
  else if n < ihlOf B o then .err .truncatedHeader .ipv4
  else if totalLenOf B o < ihlOf B o then .err .invalidHeaderLength .ipv4
  else if n < totalLenOf B o then .err .truncatedHeader .ipv4
  else .ok (ipRecord B o)

/-- `CmdParseIPv4(o, n)` (43_ipv4 R94). -/
def cmdParseIpv4 (B : Nat → Byte) (o n : Nat) : Parsed Groups :=
  match parseIpv4 B o n with
  | .err c l => .err c l
  | .ok i => .ok { ip := some i }

/-- PARSE_IPV4 (43_ipv4 R94). -/
def execParseIpv4 (s : State) : Host.Outcome State Fault Refusal :=
  .next (commit (onWindow cmdParseIpv4 s) s)

/-- `CmdClassifyIPProto(arg)` (43_ipv4 R95). -/
def cmdClassifyIpproto (p : BitVec 8) : Parsed Groups :=
  .ok { cls := some ((classifyIpProto p).setWidth 8) }

/-- CLASSIFY_IPPROTO (43_ipv4 R95): no window check, no buffer read. -/
def execClassifyIpproto (s : State) : Host.Outcome State Fault Refusal :=
  .next (commit (cmdClassifyIpproto (byteOperand s)) s)

end Sys2Proof.Machine
end

