-- ==== Sys2Proof/Machine/Tcp.lean ====
section
/-! DEFINITION. The TCP header extractor and PARSE_TCP (44_tcp). -/

namespace Sys2Proof.Machine

/-- The data offset, byte 12 bits 7:4 (44_tcp R98). -/
def dataOffOf (B : Nat → Byte) (o : Nat) : BitVec 4 := (memRead8 B (o + 12)).extractLsb' 4 4

/-- The header length in bytes: the data offset times 4 (44_tcp R98). -/
def tcpHdrLenOf (B : Nat → Byte) (o : Nat) : Nat := (dataOffOf B o).toNat * 4

/-- The record `ParseTCP` returns once its checks have passed (44_tcp R98). -/
def tcpRecord (B : Nat → Byte) (o n : Nat) : TcpGroup where
  srcPort := memRead16 B (o + 0)
  dstPort := memRead16 B (o + 2)
  seqNum := memRead32 B (o + 4)
  ackNum := memRead32 B (o + 8)
  flags := memRead8 B (o + 13)
  ns := (memRead8 B (o + 12)).extractLsb' 0 1
  optPresent := decide (20 < tcpHdrLenOf B o)
  dataOff := dataOffOf B o
  hdrLen := BitVec.ofNat 6 (tcpHdrLenOf B o)
  window := memRead16 B (o + 14)
  csum := memRead16 B (o + 16)
  urgPtr := memRead16 B (o + 18)
  payOff := toReg (o + tcpHdrLenOf B o)
  payLen := toReg (n - tcpHdrLenOf B o)

/-- `ParseTCP(o, n)`: the checks in the order of 44_tcp R98 and R100. -/
def parseTcp (B : Nat → Byte) (o n : Nat) : Parsed TcpGroup :=
  if n < 20 then .err .truncatedHeader .tcp
  else if (dataOffOf B o).toNat < 5 then .err .invalidHeaderLength .tcp
  else if n < tcpHdrLenOf B o then .err .truncatedHeader .tcp
  else .ok (tcpRecord B o n)

/-- `CmdParseTCP(o, n)` (44_tcp R99). -/
def cmdParseTcp (B : Nat → Byte) (o n : Nat) : Parsed Groups :=
  match parseTcp B o n with
  | .err c l => .err c l
  | .ok t => .ok { tcp := some t }

/-- PARSE_TCP (44_tcp R99). -/
def execParseTcp (s : State) : Host.Outcome State Fault Refusal :=
  .next (commit (onWindow cmdParseTcp s) s)

end Sys2Proof.Machine
end

