-- ==== Sys2Proof/Machine/Udp.lean ====
section
/-! DEFINITION. The UDP header extractor and PARSE_UDP (45_udp). -/

namespace Sys2Proof.Machine

/-- The record `ParseUDP` returns (45_udp R102). -/
def udpRecord (B : Nat → Byte) (o n : Nat) : UdpGroup where
  srcPort := memRead16 B (o + 0)
  dstPort := memRead16 B (o + 2)
  length := memRead16 B (o + 4)
  csum := memRead16 B (o + 6)
  payOff := toReg (o + 8)
  payLen := toReg (n - 8)

/-- `ParseUDP(o, n)` (45_udp R102): the declared length is not checked. -/
def parseUdp (B : Nat → Byte) (o n : Nat) : Parsed UdpGroup :=
  if n < 8 then .err .truncatedHeader .udp else .ok (udpRecord B o n)

/-- `CmdParseUDP(o, n)` (45_udp R103). -/
def cmdParseUdp (B : Nat → Byte) (o n : Nat) : Parsed Groups :=
  match parseUdp B o n with
  | .err c l => .err c l
  | .ok u => .ok { udp := some u }

/-- PARSE_UDP (45_udp R103). -/
def execParseUdp (s : State) : Host.Outcome State Fault Refusal :=
  .next (commit (onWindow cmdParseUdp s) s)

end Sys2Proof.Machine
end

