-- ==== Sys2Proof/Machine/Pipeline.lean ====
section
/-! DEFINITION. The layer dispatch and PARSE_FRAME (47_pipeline). -/

namespace Sys2Proof.Machine

/-- The transport layer of a frame, chosen by `PROTO_CLASS` and run on the IPv4 payload window
(47_pipeline R110, R111). -/
def parseTransport (B : Nat → Byte) (e : EthGroup) (i : IpGroup) : Parsed Groups :=
  let o := i.payOff.toNat
  let n := i.payLen.toNat
  if i.protoClass = 1 then
    match parseIcmp B o n with
    | .err c l => .err c l
    | .ok t => .ok { eth := some e, ip := some i, icmp := some t }
  else if i.protoClass = 3 then
    match parseTcp B o n with
    | .err c l => .err c l
    | .ok t => .ok { eth := some e, ip := some i, tcp := some t }
  else if i.protoClass = 4 then
    match parseUdp B o n with
    | .err c l => .err c l
    | .ok t => .ok { eth := some e, ip := some i, udp := some t }
  else .ok { eth := some e, ip := some i }

/-- The network layer of a frame, run on the Ethernet payload window when the class is IP
(47_pipeline R110, R111). -/
def parseNetwork (B : Nat → Byte) (e : EthGroup) : Parsed Groups :=
  if e.etypeClass = 3 then
    match parseIpv4 B e.payOff.toNat e.payLen.toNat with
    | .err c l => .err c l
    | .ok i => parseTransport B e i
  else .ok { eth := some e }

/-- `CmdParseFrame(o, n)` (47_pipeline R111, R112). -/
def cmdParseFrame (B : Nat → Byte) (o n : Nat) : Parsed Groups :=
  match parseEth B o n with
  | .err c l => .err c l
  | .ok e => parseNetwork B e

/-- PARSE_FRAME (47_pipeline R111). -/
def execParseFrame (s : State) : Host.Outcome State Fault Refusal :=
  .next (commit (onWindow cmdParseFrame s) s)

end Sys2Proof.Machine
end

