-- ==== Sys2Proof/Syntax.lean ====
section
/-! DEFINITION. The commands of PKTHP, one constructor per row of spec/opcode_table.json (30_encoding
R66), and the raw form of a command word (R65). -/

namespace Sys2Proof

/-- The nine commands of 30_encoding R66. A command has no immediate and no register field: its
operands are the values latched at acceptance (R65, R81). -/
inductive Instr where
  /-- PARSE_ETH (42_ethernet R89). -/
  | parseEth
  /-- PARSE_IPV4 (43_ipv4 R94). -/
  | parseIpv4
  /-- PARSE_TCP (44_tcp R99). -/
  | parseTcp
  /-- PARSE_UDP (45_udp R103). -/
  | parseUdp
  /-- PARSE_ICMP (46_icmp R107). -/
  | parseIcmp
  /-- PARSE_FRAME (47_pipeline R111). -/
  | parseFrame
  /-- CLASSIFY_ETYPE (41_ethertype R86). -/
  | classifyEtype
  /-- CLASSIFY_IPPROTO (43_ipv4 R95). -/
  | classifyIpproto
  /-- CLASSIFY_ICMPTYPE (46_icmp R108). -/
  | classifyIcmptype
  deriving DecidableEq, Repr

/-- The two fields of a command word before either is checked (30_encoding R65). -/
structure RawCommand where
  /-- Bits 3:0. -/
  op : BitVec 4
  /-- Bits 31:4. -/
  rsvd : BitVec 28
  deriving DecidableEq, Repr

end Sys2Proof
end

