-- ==== Sys2Proof/Machine/Dispatch.lean ====
section
/-! DEFINITION. One arm per command (30_encoding R70). -/

namespace Sys2Proof.Machine

def exec (i : Instr) (s : State) : Host.Outcome State Fault Refusal :=
  match i with
  | .parseEth => Sys2Proof.Machine.execParseEth s
  | .parseIpv4 => Sys2Proof.Machine.execParseIpv4 s
  | .parseTcp => Sys2Proof.Machine.execParseTcp s
  | .parseUdp => Sys2Proof.Machine.execParseUdp s
  | .parseIcmp => Sys2Proof.Machine.execParseIcmp s
  | .parseFrame => Sys2Proof.Machine.execParseFrame s
  | .classifyEtype => Sys2Proof.Machine.execClassifyEtype s
  | .classifyIpproto => Sys2Proof.Machine.execClassifyIpproto s
  | .classifyIcmptype => Sys2Proof.Machine.execClassifyIcmptype s

end Sys2Proof.Machine
end

