-- ==== Sys2Proof/WellFormed.lean ====
section
/-! DEFINITION. When a raw command is one of the nine commands (30_encoding R65 to R67). -/

namespace Sys2Proof

/-- "RSVD must be 0" (30_encoding R65). -/
def RawCommand.rsvdZero (c : RawCommand) : Bool := c.rsvd == 0#28

/-- OP is one of the opcodes 0x1 to 0x6 and 0x8 to 0xA (30_encoding R66, R67). -/
def RawCommand.opAssigned (c : RawCommand) : Bool :=
  !(c.op == 0x0#4 || c.op == 0x7#4 || decide (0xB#4 ≤ c.op))

/-- A raw command is well formed when neither condition of 30_encoding R67 makes it illegal. -/
def RawCommand.wellFormed (c : RawCommand) : Bool := c.rsvdZero && c.opAssigned

/-- The opcode column of 30_encoding R66. -/
def Instr.opcode : Instr → BitVec 4
  | .parseEth => 0x1#4
  | .parseIpv4 => 0x2#4
  | .parseTcp => 0x3#4
  | .parseUdp => 0x4#4
  | .parseIcmp => 0x5#4
  | .parseFrame => 0x6#4
  | .classifyEtype => 0x8#4
  | .classifyIpproto => 0x9#4
  | .classifyIcmptype => 0xA#4

/-- An instruction is well formed when its raw command is; it has no field that could be out of range
(30_encoding R65). -/
def Instr.wellFormed (i : Instr) : Bool := RawCommand.wellFormed ⟨i.opcode, 0#28⟩

end Sys2Proof
end

