-- ==== Sys2Proof/Decode.lean ====
section
/-! DEFINITION. The decoder of command words, total on all 32-bit values (30_encoding R65 to R67, R84),
and the encoder written from the same table. -/

namespace Sys2Proof

/-- Why a command word is illegal (30_encoding R67). Both reasons commit the same error. -/
inductive IllegalWord where
  /-- `RSVD != 0`. -/
  | reservedBits
  /-- `OP` is 0x0, 0x7 or 0xB to 0xF. -/
  | reservedOpcode
  deriving DecidableEq, Repr

/-- What a command word stands for. -/
inductive Decoded where
  | command (i : Instr)
  | illegal (why : IllegalWord)
  deriving DecidableEq, Repr

/-- The fields of a command word (30_encoding R65). -/
def RawCommand.ofWord (w : Word) : RawCommand := ⟨w.extractLsb' 0 4, w.extractLsb' 4 28⟩

/-- The command of an opcode (30_encoding R66), if it has one. -/
def Instr.ofOpcode (op : BitVec 4) : Option Instr :=
  match op.toNat with
  | 0x1 => some .parseEth
  | 0x2 => some .parseIpv4
  | 0x3 => some .parseTcp
  | 0x4 => some .parseUdp
  | 0x5 => some .parseIcmp
  | 0x6 => some .parseFrame
  | 0x8 => some .classifyEtype
  | 0x9 => some .classifyIpproto
  | 0xA => some .classifyIcmptype
  | _ => none

/-- Decoding is total: every word is one command or illegal for a named reason (30_encoding R84). -/
def decode (w : Word) : Decoded :=
  let raw := RawCommand.ofWord w
  if raw.rsvdZero then
    match Instr.ofOpcode raw.op with
    | some i => .command i
    | none => .illegal .reservedOpcode
  else .illegal .reservedBits

/-- The command word column of 30_encoding R66. -/
def encode : Instr → Word
  | .parseEth => 0x00000001#32
  | .parseIpv4 => 0x00000002#32
  | .parseTcp => 0x00000003#32
  | .parseUdp => 0x00000004#32
  | .parseIcmp => 0x00000005#32
  | .parseFrame => 0x00000006#32
  | .classifyEtype => 0x00000008#32
  | .classifyIpproto => 0x00000009#32
  | .classifyIcmptype => 0x0000000A#32

/-- A command word from the opcode table's numbering: the low `nbits` bits of `w`, zero above. -/
def tableWord (nbits w : Nat) : Word := BitVec.ofNat 32 (w % 2 ^ nbits)

/-- What the decoder reads from a word numbered as spec/opcode_table.json numbers it. A command is one
32-bit word (30_encoding R65), so there is no byte order to lay out: the word is the data of one bus
write to `CMD`. -/
def decodeTableWord (nbits w : Nat) : Option Instr :=
  match decode (tableWord nbits w) with
  | .command i => some i
  | .illegal _ => none

end Sys2Proof
end

