-- ==== Sys2Proof/Machine/Registers.lean ====
section
/-! DEFINITION. The register file as the host sees it: addresses (20_memory R51), what a read returns
(10_state R13 to R45) and what a write does (R13 to R18, 20_memory R56, 30_encoding R68, R69). -/

namespace Sys2Proof.Machine

/-- The registers of 20_memory R51. -/
inductive Reg where
  | cmd | status | ctrl | inOff | inLen | classArg | classRes | valid | bufSz
  | ethDstHi | ethDstLo | ethSrcHi | ethSrcLo | ethType | ethFrameLen | ethPayOff | ethPayLen
  | ipW0 | ipW1 | ipW2 | ipW3 | ipW4 | ipSrc | ipDst | ipOptOff | ipOptLen | ipPayOff | ipPayLen
  | tcpPorts | tcpSeq | tcpAck | tcpCtl | tcpWinCsum | tcpUrg | tcpPayOff | tcpPayLen
  | udpPorts | udpLenCsum | udpPayOff | udpPayLen
  | icmpW0 | icmpW1
  deriving DecidableEq, Repr

/-- The host address of a register (20_memory R51). -/
def Reg.addr : Reg → Nat
  | .cmd => 0x000
  | .status => 0x004
  | .ctrl => 0x008
  | .inOff => 0x00C
  | .inLen => 0x010
  | .classArg => 0x014
  | .classRes => 0x018
  | .valid => 0x01C
  | .bufSz => 0x020
  | .ethDstHi => 0x040
  | .ethDstLo => 0x044
  | .ethSrcHi => 0x048
  | .ethSrcLo => 0x04C
  | .ethType => 0x050
  | .ethFrameLen => 0x054
  | .ethPayOff => 0x058
  | .ethPayLen => 0x05C
  | .ipW0 => 0x080
  | .ipW1 => 0x084
  | .ipW2 => 0x088
  | .ipW3 => 0x08C
  | .ipW4 => 0x090
  | .ipSrc => 0x094
  | .ipDst => 0x098
  | .ipOptOff => 0x09C
  | .ipOptLen => 0x0A0
  | .ipPayOff => 0x0A4
  | .ipPayLen => 0x0A8
  | .tcpPorts => 0x0C0
  | .tcpSeq => 0x0C4
  | .tcpAck => 0x0C8
  | .tcpCtl => 0x0CC
  | .tcpWinCsum => 0x0D0
  | .tcpUrg => 0x0D4
  | .tcpPayOff => 0x0D8
  | .tcpPayLen => 0x0DC
  | .udpPorts => 0x100
  | .udpLenCsum => 0x104
  | .udpPayOff => 0x108
  | .udpPayLen => 0x10C
  | .icmpW0 => 0x120
  | .icmpW1 => 0x124

/-- Every register, in the order of 20_memory R51. -/
def Reg.all : List Reg :=
  [.cmd, .status, .ctrl, .inOff, .inLen, .classArg, .classRes, .valid, .bufSz,
   .ethDstHi, .ethDstLo, .ethSrcHi, .ethSrcLo, .ethType, .ethFrameLen, .ethPayOff, .ethPayLen,
   .ipW0, .ipW1, .ipW2, .ipW3, .ipW4, .ipSrc, .ipDst, .ipOptOff, .ipOptLen, .ipPayOff, .ipPayLen,
   .tcpPorts, .tcpSeq, .tcpAck, .tcpCtl, .tcpWinCsum, .tcpUrg, .tcpPayOff, .tcpPayLen,
   .udpPorts, .udpLenCsum, .udpPayOff, .udpPayLen,
   .icmpW0, .icmpW1]

/-- The register at a host address, if one starts there (20_memory R51). -/
def Reg.ofAddr (a : Nat) : Option Reg := Reg.all.find? (fun r => r.addr == a)

/-- The result registers (10_state R48): those of R19, R20 and R22 to R45. -/
def Reg.isResult : Reg → Bool
  | .cmd | .status | .ctrl | .inOff | .inLen | .classArg | .bufSz => false
  | _ => true

/-- What a result register holds (10_state R19, R20, R22 to R45), and 0 for the others. -/
def Results.read (x : Results) : Reg → Word
  | .classRes => place x.classRes 0
  | .valid => x.valid.word
  | .ethDstHi => place x.eth.dstHi 0
  | .ethDstLo => x.eth.dstLo
  | .ethSrcHi => place x.eth.srcHi 0
  | .ethSrcLo => x.eth.srcLo
  | .ethType => place x.eth.ethertype 0 ||| place x.eth.etypeClass 16 ||| flag x.eth.vlanPresent 24
  | .ethFrameLen => x.eth.frameLen
  | .ethPayOff => x.eth.payOff
  | .ethPayLen => x.eth.payLen
  | .ipW0 =>
    place x.ip.version 0 ||| place x.ip.ihlBytes 8 ||| place x.ip.dscp 16 ||| place x.ip.ecn 24
  | .ipW1 => place x.ip.totalLen 0 ||| place x.ip.ident 16
  | .ipW2 => place x.ip.fragOff 0 ||| place x.ip.flags 16
  | .ipW3 => place x.ip.ttl 0 ||| place x.ip.proto 8 ||| place x.ip.hdrCsum 16
  | .ipW4 => place x.ip.protoClass 0 ||| flag x.ip.optPresent 8
  | .ipSrc => x.ip.src
  | .ipDst => x.ip.dst
  | .ipOptOff => x.ip.optOff
  | .ipOptLen => x.ip.optLen
  | .ipPayOff => x.ip.payOff
  | .ipPayLen => x.ip.payLen
  | .tcpPorts => place x.tcp.srcPort 16 ||| place x.tcp.dstPort 0
  | .tcpSeq => x.tcp.seqNum
  | .tcpAck => x.tcp.ackNum
  | .tcpCtl =>
    place x.tcp.flags 0 ||| place x.tcp.ns 8 ||| flag x.tcp.optPresent 9 |||
      place x.tcp.dataOff 16 ||| place x.tcp.hdrLen 24
  | .tcpWinCsum => place x.tcp.window 16 ||| place x.tcp.csum 0
  | .tcpUrg => place x.tcp.urgPtr 0
  | .tcpPayOff => x.tcp.payOff
  | .tcpPayLen => x.tcp.payLen
  | .udpPorts => place x.udp.srcPort 16 ||| place x.udp.dstPort 0
  | .udpLenCsum => place x.udp.length 16 ||| place x.udp.csum 0
  | .udpPayOff => x.udp.payOff
  | .udpPayLen => x.udp.payLen
  | .icmpW0 => place x.icmp.icmpType 0 ||| place x.icmp.code 8 ||| place x.icmp.csum 16
  | .icmpW1 => place x.icmp.typeClass 0
  | .cmd | .status | .ctrl | .inOff | .inLen | .classArg | .bufSz => 0

/-- The register's contents as a read returns them while the engine is IDLE, reserved bits as 0
(10_state R12 to R45; `CMD` reads 0, R13). -/
def readReg (s : State) : Reg → Word
  | .cmd => 0
  | .status => statusWord s
  | .ctrl => ctrlWord s
  | .inOff => s.inOff
  | .inLen => s.inLen
  | .classArg => place s.classArg 0
  | .bufSz => BitVec.ofNat 32 Config.bufSize
  | r => s.results.read r

/-- A write that is dropped because a command is in flight (20_memory R56). -/
def dropWrite (s : State) : State := { s with writeIgnored := true }

/-- A store `f` to the buffer or to an input register: dropped while BUSY (20_memory R56). -/
def unlessBusy (f : State → State) (s : State) : State := if s.busy then dropWrite s else f s

/-- A write of `w` to `CMD`: accepted while IDLE (30_encoding R68), dropped while BUSY (R69). -/
def writeCmd (w : Word) (s : State) : State :=
  if s.busy then { s with cmdIgnored := true } else accept w s

/-- A legal 32-bit write of `v` to a register (10_state R13 to R18). A write to a read-only register is
ignored and sets no error bit (R12). -/
def writeReg (r : Reg) (v : Word) (s : State) : State :=
  match r with
  | .cmd => writeCmd v s
  | .status => writeStatus v s
  | .ctrl => { s with irqEn := v.getLsbD 0 }
  | .inOff => unlessBusy (fun s => { s with inOff := v }) s
  | .inLen => unlessBusy (fun s => { s with inLen := v }) s
  | .classArg => unlessBusy (fun s => { s with classArg := v.extractLsb' 0 16 }) s
  | _ => s

end Sys2Proof.Machine
end

