-- ==== Sys2Proof/Machine/Bus.lean ====
section
/-! DEFINITION. Host accesses (20_memory R52 to R57) and the other things the outside world does. -/

namespace Sys2Proof.Machine

/-- What an access touches. -/
inductive Target where
  /-- A register, at width 32 and an aligned address (20_memory R52). -/
  | reg (r : Reg)
  /-- Buffer byte `B[a]`, at width 8 (20_memory R54). -/
  | bufByte (a : Nat)
  /-- Buffer bytes `B[a]` to `B[a+3]`, at width 32 with `a mod 4 = 0` (20_memory R55). -/
  | bufWord (a : Nat)
  /-- An unmapped address, a width the address does not take, or a misaligned access
  (20_memory R52, R53, R55, R57). -/
  | illegal
  deriving DecidableEq, Repr

/-- The host address of buffer byte 0 (20_memory R51). -/
def bufBase : Nat := 0x1000

/-- What an access of width `w` at address `addr` touches (20_memory R51 to R55, R57). -/
def target (addr : HostAddr) (w : Width) : Target :=
  let h := addr.toNat
  match w with
  | .w16 => .illegal
  | .w8 =>
    if bufBase ≤ h ∧ exceedsBuffer (h - bufBase + 1) = false then .bufByte (h - bufBase) else .illegal
  | .w32 =>
    if h % 4 ≠ 0 then .illegal
    else if bufBase ≤ h then
      if exceedsBuffer (h - bufBase + 4) then .illegal else .bufWord (h - bufBase)
    else match Reg.ofAddr h with
      | some r => .reg r
      | none => .illegal

/-- The effect of an illegal access: `STATUS.ACC_ERR <- 1` and nothing else (20_memory R52, R53, R55). -/
def accessError (s : State) : State := { s with accErr := true }

/-- A read returns `v` to the host. -/
def returnData (v : Word) (s : State) : State := { s with rdata := v }

/-- A read of register `r`: while BUSY a result register returns a fresh unspecified value
(10_state R48), else the register's contents. -/
def readRegister (r : Reg) (s : State) : State :=
  if s.busy && r.isResult then { s with rdata := Config.busyRead s.draws, draws := s.draws + 1 }
  else returnData (readReg s r) s

/-- The buffer word at `a`, lowest address in bits 7:0 (20_memory R55). -/
def bufWordAt (s : State) (a : Nat) : Word :=
  byteAt s (a + 3) ++ byteAt s (a + 2) ++ byteAt s (a + 1) ++ byteAt s a

/-- The four byte writes of a buffer word write, which take effect together (20_memory R55). -/
def writeBufWord (a : Nat) (v : Word) (s : State) : State :=
  writeByte (a + 3) (v.extractLsb' 24 8) (writeByte (a + 2) (v.extractLsb' 16 8)
    (writeByte (a + 1) (v.extractLsb' 8 8) (writeByte a (v.extractLsb' 0 8) s)))

/-- `HostRead(addr, w)`. While `rst` is asserted it has no effect and returns 0
(70_reset_and_hazards R128). -/
def hostRead (addr : HostAddr) (w : Width) (s : State) : State :=
  if s.rst then returnData 0 s
  else match target addr w with
    | .reg r => readRegister r s
    | .bufByte a => returnData ((byteAt s a).setWidth 32) s
    | .bufWord a => returnData (bufWordAt s a) s
    | .illegal => accessError (returnData 0 s)

/-- `HostWrite(addr, w, v)`. While `rst` is asserted it has no effect (70_reset_and_hazards R128). -/
def hostWrite (addr : HostAddr) (w : Width) (v : Word) (s : State) : State :=
  if s.rst then s
  else match target addr w with
    | .reg r => writeReg r v s
    | .bufByte a => unlessBusy (writeByte a (v.extractLsb' 0 8)) s
    | .bufWord a => unlessBusy (writeBufWord a v) s
    | .illegal => accessError s

/-- One host-bus access. -/
def hostAccess (a : Access) (s : State) : State :=
  match a with
  | .read addr w => hostRead addr w s
  | .write addr w v => hostWrite addr w v s

/-- The address of `STATUS` on the bus (20_memory R51). -/
def statusAddr : HostAddr := 0x0004#16

/-- The host loop `wait` reads `STATUS` once; while it sees `BUSY = 1` it goes round again
(30_encoding R83). `polls` counts down the reads that may see BUSY (log entry 14). -/
def pollStatus (late : Bool) (polls : Nat) (s : State) : State :=
  let t := hostRead statusAddr .w32 s
  if t.rdata.getLsbD 0 then { t with agenda := ⟨late, .wait (polls - 1)⟩ :: t.agenda } else t

/-- What one entry of the agenda does. -/
def perform (e : Input) (s : State) : State :=
  match e.action with
  | .access a => hostAccess a s
  | .wait polls => pollStatus e.late polls s
  | .rst level => setRst level s

end Sys2Proof.Machine
end

