-- ==== Sys2Proof/Machine/Schedule.lean ====
section
/-! DEFINITION. Which agent moves next, how a command word reaches the engine, and the host-program
notation of 30_encoding R82 and R83. -/

namespace Sys2Proof.Machine

/-- Whether the head of the agenda lets the engine commit before it. -/
def Input.yields (e : Input) : Bool := e.late || e.action == .wait 0

/-- Whether the engine moves next: it has a command, and the outside world does nothing before the
commit (10_state R10, 70_reset_and_hazards R137). With nothing on the agenda the commit is the next
step, so every command in flight is completed at last. -/
def engineTurn (s : State) : Bool :=
  s.busy &&
    match s.agenda with
    | [] => true
    | e :: _ => e.yields

/-- The outside world moves: the head of the agenda is performed; with nothing to do, the state stays
(60_exceptions R127). -/
def outsideMove (s : State) : State :=
  match s.agenda with
  | [] => s
  | e :: rest => perform e { s with agenda := rest }

/-- The agenda with its head, if it has one, put after the commit of the command in flight. -/
def yieldHead : List Input → List Input
  | [] => []
  | e :: rest => { e with late := true } :: rest

/-- The state in which the word `w` has been accepted as the command that the engine executes next. -/
def presentCommand (w : Word) (s : State) : State :=
  { accept w s with rst := false, agenda := yieldHead s.agenda }

/-- One operation of a host program (30_encoding R82). -/
inductive HostOp where
  /-- `wr REG, imm`. -/
  | wr (r : Reg) (imm : Word)
  /-- `rd REG`. -/
  | rd (r : Reg)
  /-- `wrb off: b0 b1 ... bk`. -/
  | wrb (off : Nat) (bytes : List Byte)
  /-- `wrw off: v`. -/
  | wrw (off : Nat) (v : Word)
  /-- `cmd MNEMONIC`. -/
  | cmd (i : Instr)
  /-- `wait`, with the number of polls that may find `BUSY = 1` (log entry 14). -/
  | wait (polls : Nat)
  /-- `; text`. -/
  | comment
  deriving DecidableEq, Repr

/-- The 16-bit bus address of a host address. DESIGN CHOICE: past 0xFFFF, where the bus has no address and
30_encoding R82 says nothing, it wraps modulo 2^16 (log entry 20). -/
def busAddr (n : Nat) : HostAddr := BitVec.ofNat 16 n

/-- The 8-bit writes of `wrb`, in order (30_encoding R82). -/
def byteWrites : Nat → List Byte → List Action
  | _, [] => []
  | off, b :: bs =>
    .access (.write (busAddr (bufBase + off)) .w8 (b.setWidth 32)) :: byteWrites (off + 1) bs

/-- The bus transactions of one operation (30_encoding R82, R83). -/
def HostOp.actions : HostOp → List Action
  | .wr r imm => [.access (.write (busAddr r.addr) .w32 imm)]
  | .rd r => [.access (.read (busAddr r.addr) .w32)]
  | .wrb off bytes => byteWrites off bytes
  | .wrw off v => [.access (.write (busAddr (bufBase + off)) .w32 v)]
  | .cmd i => [.access (.write (busAddr Reg.cmd.addr) .w32 (encode i))]
  | .wait polls => [.wait polls]
  | .comment => []

/-- A host program as agenda entries. Each operation comes with its `late` mark: whether the engine
commits a command in flight before the operation's transactions (log entry 4). -/
def hostProgram : List (Bool × HostOp) → List Input
  | [] => []
  | (late, op) :: rest => op.actions.map (fun a => ⟨late, a⟩) ++ hostProgram rest

end Sys2Proof.Machine
end

