-- ==== Sys2Proof/Machine/Step.lean ====
section
/-! DEFINITION. One step of the machine: either the engine executes and commits the command it latched
(30_encoding R70, R71), or the outside world makes its next move. -/

namespace Sys2Proof.Machine

/-- The engine's step: the latched word is decoded; a command runs, any other word commits ILLEGAL_CMD
(30_encoding R70). -/
def engineMove (s : State) : Host.Outcome State Fault Refusal :=
  match decode (fetchCommand s) with
  | .command i => exec i s
  | .illegal _ => .next (commitIllegal s)

/-- One step of PKTHP and the world around it. -/
def step (s : State) : Host.Outcome State Fault Refusal :=
  if engineTurn s then engineMove s else .next (outsideMove s)

/-- `s` with the opcode table's word accepted as the command that the next step executes. PKTHP has no
program counter (10_state R11): a command is one `CMD` write, latched at acceptance (20_memory R63), so
this is that acceptance, with `rst` released and the engine's turn next (log entry 5). -/
def State.withFetchWord (s : State) (nbits w : Nat) : State := presentCommand (tableWord nbits w) s

end Sys2Proof.Machine
end

