-- ==== Sys2Proof/Safety.lean ====
section
/-! DEFINITION. What claims about PKTHP are stated in: the invariant of the machine, what a failed and a
successful command leave, what a command leaves alone, and which host accesses are legal. -/

namespace Sys2Proof.Machine

/-! ### The invariant -/

/-- The pairs of `ERR` and `ERR_LAYER` that a command can leave (60_exceptions R114, R115). -/
def legalErrors : List (BitVec 4 × BitVec 3) :=
  [(0, 0), (1, 1), (1, 2), (1, 3), (1, 4), (1, 5), (2, 2), (2, 3), (3, 7), (4, 7)]

/-- The values of `VALID` that a command can leave (41_ethertype R86, 42_ethernet R89, 43_ipv4 R94, R95,
44_tcp R99, 45_udp R103, 46_icmp R107, R108, 47_pipeline R111). -/
def legalValid : List Word := [0x00, 0x01, 0x02, 0x04, 0x08, 0x10, 0x20, 0x03, 0x07, 0x0B, 0x13]

/-- The block is as reset leaves it, `rst` still asserted (70_reset_and_hazards R128). -/
def HeldInReset (s : State) : Prop :=
  s = { State.reset with
    rst := true, agenda := s.agenda, rdata := s.rdata, draws := s.draws, resets := s.resets }

/-- The engine's part of the invariant. -/
structure EngineInv (s : State) : Prop where
  /-- "While `rst` is asserted ... the block is in its reset state" (70_reset_and_hazards R128). -/
  held : s.rst = true → HeldInReset s
  /-- Acceptance cleared `DONE`, `ERR` and `ERR_LAYER` (30_encoding R68). -/
  cleared : s.busy = true → s.done = false ∧ s.err = 0 ∧ s.errLayer = 0
  /-- "the latched values always equal the registers while BUSY" (10_state R49). -/
  latched : s.busy = true → s.loff = s.inOff ∧ s.llen = s.inLen ∧ s.larg = s.classArg
  /-- Only codes of 60_exceptions R114 and R115, and `ERR_LAYER` is 0 iff `ERR` is 0. -/
  errors : (s.err, s.errLayer) ∈ legalErrors
  /-- After a failed command every result register is 0 (30_encoding R71). -/
  failed : s.err ≠ 0 → s.results = Results.zero

/-- A group whose `VALID` bit is 0 reads as zero (30_encoding R71). -/
structure ZeroUnlessValid (x : Results) : Prop where
  eth : x.valid.eth = false → x.eth = .zero
  ip : x.valid.ip = false → x.ip = .zero
  tcp : x.valid.tcp = false → x.tcp = .zero
  udp : x.valid.udp = false → x.udp = .zero
  icmp : x.valid.icmp = false → x.icmp = .zero
  cls : x.valid.cls = false → x.classRes = 0

/-- The descriptor names bytes of the buffer (20_memory R60). -/
def InBuffer (off len : Word) : Prop := off.toNat + len.toNat ≤ Config.bufSize

/-- A valid Ethernet group (42_ethernet R88): the header is 14 or 18 bytes, and the payload runs to the
end of the window. -/
structure EthSound (e : EthGroup) : Prop where
  cls : e.etypeClass = classifyEtherType Config.etypeTable e.ethertype
  lengths : e.frameLen.toNat = (if e.vlanPresent then 18 else 14) + e.payLen.toNat
  payload : InBuffer e.payOff e.payLen

/-- A valid IPv4 group (43_ipv4 R92, 10_state R27, R31, R33). -/
structure IpSound (i : IpGroup) : Prop where
  ihl : 20 ≤ i.ihlBytes.toNat ∧ i.ihlBytes.toNat ≤ 60 ∧ i.ihlBytes.toNat % 4 = 0
  cls : i.protoClass = classifyIpProto i.proto
  option : i.optPresent = decide (20 < i.ihlBytes.toNat)
  optionsThere : i.optPresent = true →
    i.optLen.toNat = i.ihlBytes.toNat - 20 ∧ i.optOff.toNat + i.optLen.toNat = i.payOff.toNat
  optionsAbsent : i.optPresent = false → i.optOff = 0 ∧ i.optLen = 0
  lengths : i.totalLen.toNat = i.ihlBytes.toNat + i.payLen.toNat
  payload : InBuffer i.payOff i.payLen

/-- A valid TCP group (44_tcp R98, 10_state R37). -/
structure TcpSound (t : TcpGroup) : Prop where
  off : 5 ≤ t.dataOff.toNat
  hdr : t.hdrLen.toNat = t.dataOff.toNat * 4
  option : t.optPresent = decide (20 < t.hdrLen.toNat)
  payload : InBuffer t.payOff t.payLen

/-- What the result registers hold (10_state R20, R48; 30_encoding R71, R78 to R80; 20_memory R60). -/
structure ResultsSound (x : Results) : Prop where
  valid : x.valid.word ∈ legalValid
  zero : ZeroUnlessValid x
  eth : x.valid.eth = true → EthSound x.eth
  ip : x.valid.ip = true → IpSound x.ip
  tcp : x.valid.tcp = true → TcpSound x.tcp
  udp : x.valid.udp = true → InBuffer x.udp.payOff x.udp.payLen
  icmp : x.valid.icmp = true → x.icmp.typeClass = classifyIcmpType x.icmp.icmpType
  /-- "255: never produced" (30_encoding R78). -/
  codes : x.classRes ≠ 255 ∧ x.eth.etypeClass ≠ 255

/-- The invariant of PKTHP: it holds after reset, and every step keeps it. -/
structure Invariant (s : State) : Prop where
  engine : EngineInv s
  results : ResultsSound s.results
  buffer : s.buf.wf

/-! ### What a command leaves -/

/-- The window `(LOFF, LLEN)` fits in the buffer (30_encoding R70). -/
def WindowFits (s : State) : Prop := s.loff.toNat + s.llen.toNat ≤ Config.bufSize

/-- The command ended with this error code and layer (30_encoding R71, 60_exceptions R119). -/
structure EndedWithError (t : State) (code : BitVec 4) (layer : BitVec 3) : Prop where
  err : t.err = code
  errLayer : t.errLayer = layer
  results : t.results = Results.zero
  done : t.done = true
  idle : t.eng = .idle

/-- The command ended without error, with this `VALID` word (30_encoding R71). -/
structure EndedWell (t : State) (valid : Word) : Prop where
  err : t.err = 0
  errLayer : t.errLayer = 0
  valid : t.results.valid.word = valid
  zero : ZeroUnlessValid t.results
  done : t.done = true
  idle : t.eng = .idle

/-- Nothing but what a commit writes has changed: not an input register, `CTRL`, a sticky bit, a latched
value, the reset input, the outside world's own data, or any byte of the buffer (30_encoding R71,
60_exceptions R119, 20_memory R59). That the latched values stay is the model's choice (log entry 13). -/
structure CommitFrame (s t : State) : Prop where
  lop : t.lop = s.lop
  loff : t.loff = s.loff
  llen : t.llen = s.llen
  larg : t.larg = s.larg
  cmdIgnored : t.cmdIgnored = s.cmdIgnored
  writeIgnored : t.writeIgnored = s.writeIgnored
  accErr : t.accErr = s.accErr
  irqEn : t.irqEn = s.irqEn
  inOff : t.inOff = s.inOff
  inLen : t.inLen = s.inLen
  classArg : t.classArg = s.classArg
  bytes : ∀ a, byteAt t a = byteAt s a
  rst : t.rst = s.rst
  agenda : t.agenda = s.agenda
  rdata : t.rdata = s.rdata
  draws : t.draws = s.draws
  resets : t.resets = s.resets

/-- Two states agree on every byte of the window `(LOFF, LLEN)` of the first. -/
def SameWindowBytes (s t : State) : Prop :=
  ∀ a, s.loff.toNat ≤ a → a < s.loff.toNat + s.llen.toNat → byteAt s a = byteAt t a

/-- What a host does to have command `i` run on the window `(off, len)`: it writes `IN_OFF`, `IN_LEN` and
`CMD` (47_pipeline R113, 30_encoding R82). -/
def hostCommand (i : Instr) (off len : Word) (s : State) : State :=
  hostWrite 0x0000#16 .w32 (encode i)
    (hostWrite 0x0010#16 .w32 len (hostWrite 0x000C#16 .w32 off s))

/-! ### What the fields of a window say

These read the header formats of 30_encoding R72 to R77 byte by byte, in the spec's own numbers. -/

/-- The Ethernet group of the window `(o, n)` of `B`, for a header of `hl` bytes (42_ethernet R88). -/
structure EthFields (B : Nat → Byte) (o n : Nat) (vlan : Bool) (et : BitVec 16) (hl : Nat)
    (e : EthGroup) : Prop where
  dstHi : e.dstHi = B o ++ B (o + 1)
  dstLo : e.dstLo = B (o + 2) ++ B (o + 3) ++ B (o + 4) ++ B (o + 5)
  srcHi : e.srcHi = B (o + 6) ++ B (o + 7)
  srcLo : e.srcLo = B (o + 8) ++ B (o + 9) ++ B (o + 10) ++ B (o + 11)
  ethertype : e.ethertype = et
  etypeClass : e.etypeClass = classifyEtherType Config.etypeTable et
  vlanPresent : e.vlanPresent = vlan
  frameLen : e.frameLen.toNat = n
  payOff : e.payOff.toNat = o + hl
  payLen : e.payLen.toNat = n - hl

/-- The IPv4 group of a window at `o`, whose header is `ihl` and whose packet `tl` bytes long
(43_ipv4 R92, 30_encoding R74). -/
structure IpFields (B : Nat → Byte) (o ihl tl : Nat) (i : IpGroup) : Prop where
  version : i.version.toNat = (B o).toNat / 16
  ihlBytes : i.ihlBytes.toNat = ihl
  dscp : i.dscp.toNat = (B (o + 1)).toNat / 4
  ecn : i.ecn.toNat = (B (o + 1)).toNat % 4
  totalLen : i.totalLen.toNat = tl
  ident : i.ident = B (o + 4) ++ B (o + 5)
  flags : i.flags.toNat = (B (o + 6)).toNat / 32
  fragOff : i.fragOff.toNat = (B (o + 6)).toNat % 32 * 256 + (B (o + 7)).toNat
  ttl : i.ttl = B (o + 8)
  proto : i.proto = B (o + 9)
  hdrCsum : i.hdrCsum = B (o + 10) ++ B (o + 11)
  protoClass : i.protoClass = classifyIpProto (B (o + 9))
  optPresent : i.optPresent = decide (20 < ihl)
  src : i.src = B (o + 12) ++ B (o + 13) ++ B (o + 14) ++ B (o + 15)
  dst : i.dst = B (o + 16) ++ B (o + 17) ++ B (o + 18) ++ B (o + 19)
  options : 20 < ihl → i.optOff.toNat = o + 20 ∧ i.optLen.toNat = ihl - 20
  noOptions : ihl = 20 → i.optOff = 0 ∧ i.optLen = 0
  payOff : i.payOff.toNat = o + ihl
  payLen : i.payLen.toNat = tl - ihl

/-- The TCP group of the window `(o, n)` of `B`, whose header is `hl` bytes long (44_tcp R98,
30_encoding R75). -/
structure TcpFields (B : Nat → Byte) (o n hl : Nat) (t : TcpGroup) : Prop where
  srcPort : t.srcPort = B o ++ B (o + 1)
  dstPort : t.dstPort = B (o + 2) ++ B (o + 3)
  seqNum : t.seqNum = B (o + 4) ++ B (o + 5) ++ B (o + 6) ++ B (o + 7)
  ackNum : t.ackNum = B (o + 8) ++ B (o + 9) ++ B (o + 10) ++ B (o + 11)
  flags : t.flags = B (o + 13)
  ns : t.ns.toNat = (B (o + 12)).toNat % 2
  optPresent : t.optPresent = decide (20 < hl)
  dataOff : t.dataOff.toNat = (B (o + 12)).toNat / 16
  hdrLen : t.hdrLen.toNat = hl
  window : t.window = B (o + 14) ++ B (o + 15)
  csum : t.csum = B (o + 16) ++ B (o + 17)
  urgPtr : t.urgPtr = B (o + 18) ++ B (o + 19)
  payOff : t.payOff.toNat = o + hl
  payLen : t.payLen.toNat = n - hl

/-- The UDP group of the window `(o, n)` of `B` (45_udp R102, 30_encoding R76). -/
structure UdpFields (B : Nat → Byte) (o n : Nat) (u : UdpGroup) : Prop where
  srcPort : u.srcPort = B o ++ B (o + 1)
  dstPort : u.dstPort = B (o + 2) ++ B (o + 3)
  length : u.length = B (o + 4) ++ B (o + 5)
  csum : u.csum = B (o + 6) ++ B (o + 7)
  payOff : u.payOff.toNat = o + 8
  payLen : u.payLen.toNat = n - 8

/-- The ICMP group of a window at `o` of `B` (46_icmp R106, 30_encoding R77). -/
structure IcmpFields (B : Nat → Byte) (o : Nat) (m : IcmpGroup) : Prop where
  icmpType : m.icmpType = B o
  code : m.code = B (o + 1)
  csum : m.csum = B (o + 2) ++ B (o + 3)
  typeClass : m.typeClass = classifyIcmpType (B o)

/-! ### Host accesses -/

/-- The register rows of the address map (20_memory R51). -/
def RegisterRow (h : Nat) : Prop :=
  h ≤ 0x0023 ∨ (0x0040 ≤ h ∧ h ≤ 0x005F) ∨ (0x0080 ≤ h ∧ h ≤ 0x00AB) ∨ (0x00C0 ≤ h ∧ h ≤ 0x00DF) ∨
    (0x0100 ≤ h ∧ h ≤ 0x010F) ∨ (0x0120 ≤ h ∧ h ≤ 0x0127)

/-- The frame-buffer window of the address map (20_memory R51). -/
def BufferRow (h : Nat) : Prop := 0x1000 ≤ h ∧ h < 0x1000 + Config.bufSize

/-- The legal accesses: 32-bit aligned ones to a register or the buffer, and 8-bit ones to the buffer
(20_memory R52 to R55, R57). -/
def LegalAccess (addr : HostAddr) (w : Width) : Prop :=
  (w = .w32 ∧ addr.toNat % 4 = 0 ∧ (RegisterRow addr.toNat ∨ BufferRow addr.toNat)) ∨
    (w = .w8 ∧ BufferRow addr.toNat)

/-- How many more moves the outside world can make while a command is in flight: one for each entry of
the agenda, and one more for each poll of a `wait`. -/
def pendingMoves : List Input → Nat
  | [] => 0
  | ⟨_, .wait polls⟩ :: rest => polls + 1 + pendingMoves rest
  | _ :: rest => 1 + pendingMoves rest

end Sys2Proof.Machine
end

