-- ==== Sys2Proof/Certificates/Slice0/Obligations.lean ====
section
/-! DEFINITION. The statements for the provers. Each docstring names the rule of spec/ it formalises. -/

open Sys2Proof Sys2Proof.Machine

/-! ### Command words -/

/-- 30_encoding R66 and R67, on words written out from the table: each command word decodes to its
command, and a reserved opcode or a nonzero reserved bit to no command. -/
def Obligations.CommandWordsDecode : Prop :=
  decode 0x00000001#32 = .command .parseEth ∧ decode 0x00000002#32 = .command .parseIpv4 ∧
  decode 0x00000003#32 = .command .parseTcp ∧ decode 0x00000004#32 = .command .parseUdp ∧
  decode 0x00000005#32 = .command .parseIcmp ∧ decode 0x00000006#32 = .command .parseFrame ∧
  decode 0x00000008#32 = .command .classifyEtype ∧
  decode 0x00000009#32 = .command .classifyIpproto ∧
  decode 0x0000000A#32 = .command .classifyIcmptype ∧
  decode 0x00000007#32 = .illegal .reservedOpcode ∧ decode 0x80000001#32 = .illegal .reservedBits

/-- 30_encoding R66: of all 2^32 words, exactly one decodes to a command, the one the encoder gives. -/
def Obligations.DecodeExactlyEncodedWords : Prop :=
  ∀ (w : Word) (i : Instr), decode w = .command i ↔ w = encode i

/-- 30_encoding R84: every word written to `CMD` while IDLE is accepted, and selects one row of R66 or is
ILLEGAL_CMD. -/
def Obligations.EveryWordIsACommandOrIllegal : Prop :=
  ∀ w : Word,
    (∀ s : State, s.eng = .idle → s.rst = false →
      (hostWrite 0x0000#16 .w32 w s).eng = .busy ∧ (hostWrite 0x0000#16 .w32 w s).lop = w) ∧
    (w.toNat / 16 = 0 ∧ (1 ≤ w.toNat % 16 ∧ w.toNat % 16 ≤ 6 ∨ 8 ≤ w.toNat % 16 ∧ w.toNat % 16 ≤ 10) →
      ∃ i, decode w = .command i ∧ encode i = w) ∧
    (¬(w.toNat / 16 = 0 ∧
        (1 ≤ w.toNat % 16 ∧ w.toNat % 16 ≤ 6 ∨ 8 ≤ w.toNat % 16 ∧ w.toNat % 16 ≤ 10)) →
      ∀ s : State, engineTurn s = true → s.lop = w →
        ∃ t, step s = .next t ∧ EndedWithError t 4 7)

/-- 30_encoding R67: an illegal word is accepted like any other (R68), and commits ILLEGAL_CMD in layer
CMD; that it reads no buffer byte shows in the outcome, which names no byte. Nothing else changes
(60_exceptions R119; for the latched values see log entry 13). -/
def Obligations.IllegalCommandCommitsError : Prop :=
  ∀ (s : State) (w : Word),
    (w.extractLsb' 4 28 ≠ 0 ∨ w.extractLsb' 0 4 = 0x0#4 ∨ w.extractLsb' 0 4 = 0x7#4 ∨
      0xB ≤ (w.extractLsb' 0 4).toNat) →
    (s.eng = .idle → s.rst = false → hostWrite 0x0000#16 .w32 w s = accept w s) ∧
    (engineTurn s = true → s.lop = w →
      ∃ t, step s = .next t ∧ EndedWithError t 4 7 ∧ CommitFrame s t)

/-! ### The life of a command -/

/-- 30_encoding R68: what acceptance does, in one step, and what it leaves alone. -/
def Obligations.AcceptanceLatchesCommand : Prop :=
  ∀ (w : Word) (s : State), s.eng = .idle → s.rst = false →
    let t := hostWrite 0x0000#16 .w32 w s
    t.lop = w ∧ t.loff = s.inOff ∧ t.llen = s.inLen ∧ t.larg = s.classArg ∧ t.eng = .busy ∧
    (statusWord t).getLsbD 0 = true ∧ t.done = false ∧ t.err = 0 ∧ t.errLayer = 0 ∧
    t.cmdIgnored = s.cmdIgnored ∧ t.writeIgnored = s.writeIgnored ∧ t.accErr = s.accErr ∧
    t.results = s.results ∧ t.inOff = s.inOff ∧ t.inLen = s.inLen ∧ t.classArg = s.classArg ∧
    t.irqEn = s.irqEn ∧ t.buf = s.buf

/-- 30_encoding R69: a `CMD` write while BUSY sets CMD_IGNORED and does nothing else. -/
def Obligations.CommandWriteWhileBusyIsDropped : Prop :=
  ∀ (w : Word) (s : State), s.eng = .busy → s.rst = false →
    hostWrite 0x0000#16 .w32 w s = { s with cmdIgnored := true }

/-- A step runs the command the engine has latched (30_encoding R70): when the engine moves and `LOP`
decodes to `i`, the step is `exec i`, with nothing around it. -/
def Obligations.StepRunsDecodedCommand : Prop :=
  ∀ (s : State) (i : Instr), engineTurn s = true → decode s.lop = .command i → step s = exec i s

/-- The model's fetch interface: a table word that decodes is the command the next step runs
(log entry 5). -/
def Obligations.PresentedWordRunsNext : Prop :=
  ∀ (s : State) (nbits w : Nat) (i : Instr), decodeTableWord nbits w = some i →
    step (s.withFetchWord nbits w) = exec i (s.withFetchWord nbits w)

/-- When the engine does not move, the step is the next move of the outside world; with none to come,
the IDLE engine stays as it is (60_exceptions R127; the agenda is the model's own, log entry 4). -/
def Obligations.StepPerformsNextInput : Prop :=
  (∀ (s : State) (e : Input) (rest : List Input), engineTurn s = false → s.agenda = e :: rest →
    step s = .next (perform e { s with agenda := rest })) ∧
  (∀ s : State, s.eng = .idle → s.agenda = [] → step s = .next s)

/-- Every step answers a next state: "every command completes, and every access has a defined effect"
(93_implementation_defined). -/
def Obligations.StepNeverStops : Prop := ∀ s : State, ∃ t, step s = .next t

/-- 70_reset_and_hazards R137 (each command is completed at last, whatever the outside world does
meanwhile): after at most one step for each pending move, the command still in flight, the next step is
the engine's commit, which sets DONE, or asserts `rst` (R128). If no pending move asserts `rst`, it is the
commit. The agenda and its counts are the model's own (log entries 4 and 14). -/
def Obligations.BusyCommandCompletes : Prop :=
  ∀ s : State, s.eng = .busy →
    ∃ k u t, k ≤ pendingMoves s.agenda ∧ Sys2Proof.core.run k s = .next u ∧ u.eng = .busy ∧
      step u = .next t ∧ t.eng = .idle ∧
      (engineTurn u = true ∧ t.done = true ∨ u.rst = false ∧ t.rst = true) ∧
      ((∀ e ∈ s.agenda, e.action ≠ .rst true) → engineTurn u = true)

/-- 10_state R11 and 60_exceptions R127: the engine goes from IDLE to BUSY only by a 32-bit write to
`CMD`, which it latches, and from BUSY to IDLE only by its own move or by reset. -/
def Obligations.EngineChangesOnlyAsAllowed : Prop :=
  ∀ s t : State, step s = .next t →
    (s.eng = .idle → t.eng = .busy →
      ∃ late w rest, s.agenda = ⟨late, .access (.write 0x0000#16 .w32 w)⟩ :: rest ∧ t.lop = w) ∧
    (s.eng = .busy → t.eng = .idle → engineTurn s = true ∨ (s.rst = false ∧ t.rst = true))

/-- The frame of all nine commands (30_encoding R71, 60_exceptions R119, 20_memory R59): whatever its
outcome, a command changes only the result registers, `ERR`, `ERR_LAYER`, `DONE` and `ENG`. Every byte of
the buffer reads as before. That LOP, LOFF, LLEN and LARG keep their values after the commit is the
model's choice (log entry 13). -/
def Obligations.CommandFrame : Prop :=
  ∀ (i : Instr) (s t : State), exec i s = .next t → CommitFrame s t

/-- 60_exceptions R119: what a failing command, legal word or not, commits, and that nothing else
changes (for the latched values see log entry 13). -/
def Obligations.FailedCommandLeavesNoResult : Prop :=
  ∀ s : State, ∃ t, engineMove s = .next t ∧
    (t.err ≠ 0 → t.errLayer ≠ 0 ∧ t.results = Results.zero ∧ t.results.valid.word = 0 ∧
      t.eng = .idle ∧ t.done = true ∧ (s.irqEn = true → irq t = true) ∧ CommitFrame s t)

/-- 30_encoding R71: after a command, a group is all zero unless its `VALID` bit is set, and after an
error nothing is valid. -/
def Obligations.UnfilledGroupsAreZero : Prop :=
  ∀ (i : Instr) (s t : State), exec i s = .next t →
    ZeroUnlessValid t.results ∧ (t.err ≠ 0 → t.results.valid.word = 0) ∧
    t.results.valid.word ∈ legalValid ∧ t.done = true ∧ t.eng = .idle

/-- 60_exceptions R114 and R115: the pairs of code and layer that a command can leave; in particular
`ERR_LAYER` is 0 iff `ERR` is 0. -/
def Obligations.CommandErrorsAreLegal : Prop :=
  ∀ (i : Instr) (s t : State), exec i s = .next t →
    (t.err, t.errLayer) ∈ legalErrors ∧ (t.errLayer = 0 ↔ t.err = 0)

/-! ### The commands -/

/-- 42_ethernet R88 and R89: PARSE_ETH on every window. -/
def Obligations.ParseEthDecodes : Prop :=
  ∀ s : State,
    let B := byteAt s
    let o := s.loff.toNat
    let n := s.llen.toNat
    let tagged := B (o + 12) = 0x81#8 ∧ B (o + 13) = 0x00#8
    ∃ t, exec .parseEth s = .next t ∧
      (¬WindowFits s → EndedWithError t 3 7) ∧
      (WindowFits s → n < 14 → EndedWithError t 1 1) ∧
      (WindowFits s → 14 ≤ n → n < 18 → tagged → EndedWithError t 1 1) ∧
      (WindowFits s → 14 ≤ n → ¬tagged →
        EndedWell t 0x01 ∧ EthFields B o n false (B (o + 12) ++ B (o + 13)) 14 t.results.eth) ∧
      (WindowFits s → 18 ≤ n → tagged →
        EndedWell t 0x01 ∧ EthFields B o n true (B (o + 16) ++ B (o + 17)) 18 t.results.eth)

/-- 43_ipv4 R92, R94 and R96: PARSE_IPV4 on every window, its errors in order. -/
def Obligations.ParseIpv4Decodes : Prop :=
  ∀ s : State,
    let B := byteAt s
    let o := s.loff.toNat
    let n := s.llen.toNat
    let ihl := (B o).toNat % 16 * 4
    let tl := (B (o + 2)).toNat * 256 + (B (o + 3)).toNat
    ∃ t, exec .parseIpv4 s = .next t ∧
      (¬WindowFits s → EndedWithError t 3 7) ∧
      (WindowFits s → n < 20 → EndedWithError t 1 2) ∧
      (WindowFits s → 20 ≤ n → ihl < 20 → EndedWithError t 2 2) ∧
      (WindowFits s → 20 ≤ n → 20 ≤ ihl → n < ihl → EndedWithError t 1 2) ∧
      (WindowFits s → 20 ≤ n → 20 ≤ ihl → ihl ≤ n → tl < ihl → EndedWithError t 2 2) ∧
      (WindowFits s → 20 ≤ n → 20 ≤ ihl → ihl ≤ n → ihl ≤ tl → n < tl → EndedWithError t 1 2) ∧
      (WindowFits s → 20 ≤ ihl → ihl ≤ tl → tl ≤ n →
        EndedWell t 0x02 ∧ IpFields B o ihl tl t.results.ip)

/-- 44_tcp R98, R99 and R100: PARSE_TCP on every window, its errors in order. -/
def Obligations.ParseTcpDecodes : Prop :=
  ∀ s : State,
    let B := byteAt s
    let o := s.loff.toNat
    let n := s.llen.toNat
    let doff := (B (o + 12)).toNat / 16
    ∃ t, exec .parseTcp s = .next t ∧
      (¬WindowFits s → EndedWithError t 3 7) ∧
      (WindowFits s → n < 20 → EndedWithError t 1 3) ∧
      (WindowFits s → 20 ≤ n → doff < 5 → EndedWithError t 2 3) ∧
      (WindowFits s → 20 ≤ n → 5 ≤ doff → n < doff * 4 → EndedWithError t 1 3) ∧
      (WindowFits s → 5 ≤ doff → doff * 4 ≤ n →
        EndedWell t 0x04 ∧ TcpFields B o n (doff * 4) t.results.tcp)

/-- 45_udp R102 and R103: PARSE_UDP on every window. -/
def Obligations.ParseUdpDecodes : Prop :=
  ∀ s : State, ∃ t, exec .parseUdp s = .next t ∧
    (¬WindowFits s → EndedWithError t 3 7) ∧
    (WindowFits s → s.llen.toNat < 8 → EndedWithError t 1 4) ∧
    (WindowFits s → 8 ≤ s.llen.toNat →
      EndedWell t 0x08 ∧ UdpFields (byteAt s) s.loff.toNat s.llen.toNat t.results.udp)

/-- 46_icmp R106 and R107: PARSE_ICMP on every window. -/
def Obligations.ParseIcmpDecodes : Prop :=
  ∀ s : State, ∃ t, exec .parseIcmp s = .next t ∧
    (¬WindowFits s → EndedWithError t 3 7) ∧
    (WindowFits s → s.llen.toNat < 4 → EndedWithError t 1 5) ∧
    (WindowFits s → 4 ≤ s.llen.toNat →
      EndedWell t 0x10 ∧ IcmpFields (byteAt s) s.loff.toNat t.results.icmp)

/-- 47_pipeline R110, R111 and R112: PARSE_FRAME runs the layers in order, each on the payload window of
the layer before, and the first failure is its outcome. -/
def Obligations.ParseFrameRunsLayers : Prop :=
  ∀ s : State, ∃ t, exec .parseFrame s = .next t ∧
    (¬WindowFits s → EndedWithError t 3 7) ∧
    (WindowFits s → ∀ c l, parseEth (byteAt s) s.loff.toNat s.llen.toNat = .err c l →
      EndedWithError t c.code l.code) ∧
    (WindowFits s → ∀ e, parseEth (byteAt s) s.loff.toNat s.llen.toNat = .ok e →
      (e.etypeClass ≠ 3 → EndedWell t 0x01 ∧ t.results.eth = e) ∧
      (e.etypeClass = 3 → ∀ c l, parseIpv4 (byteAt s) e.payOff.toNat e.payLen.toNat = .err c l →
        EndedWithError t c.code l.code) ∧
      (e.etypeClass = 3 → ∀ i, parseIpv4 (byteAt s) e.payOff.toNat e.payLen.toNat = .ok i →
        (i.protoClass = 1 → ∀ c l, parseIcmp (byteAt s) i.payOff.toNat i.payLen.toNat = .err c l →
          EndedWithError t c.code l.code) ∧
        (i.protoClass = 3 → ∀ c l, parseTcp (byteAt s) i.payOff.toNat i.payLen.toNat = .err c l →
          EndedWithError t c.code l.code) ∧
        (i.protoClass = 4 → ∀ c l, parseUdp (byteAt s) i.payOff.toNat i.payLen.toNat = .err c l →
          EndedWithError t c.code l.code) ∧
        (i.protoClass = 1 → ∀ m, parseIcmp (byteAt s) i.payOff.toNat i.payLen.toNat = .ok m →
          EndedWell t 0x13 ∧ t.results.eth = e ∧ t.results.ip = i ∧ t.results.icmp = m) ∧
        (i.protoClass = 3 → ∀ p, parseTcp (byteAt s) i.payOff.toNat i.payLen.toNat = .ok p →
          EndedWell t 0x07 ∧ t.results.eth = e ∧ t.results.ip = i ∧ t.results.tcp = p) ∧
        (i.protoClass = 4 → ∀ u, parseUdp (byteAt s) i.payOff.toNat i.payLen.toNat = .ok u →
          EndedWell t 0x0B ∧ t.results.eth = e ∧ t.results.ip = i ∧ t.results.udp = u) ∧
        (i.protoClass ≠ 1 → i.protoClass ≠ 3 → i.protoClass ≠ 4 →
          EndedWell t 0x03 ∧ t.results.eth = e ∧ t.results.ip = i)))

/-- 47_pipeline R113: PARSE_FRAME agrees with the host that runs PARSE_ETH on the same window and then
writes each payload descriptor to `IN_OFF` and `IN_LEN` and chains PARSE_IPV4 and one of PARSE_ICMP,
PARSE_TCP and PARSE_UDP: the same groups when it succeeds, the same error at the same layer when it
fails. -/
def Obligations.FrameAgreesWithHostChaining : Prop :=
  ∀ s : State, s.rst = false →
    ∃ t t1, exec .parseFrame s = .next t ∧ exec .parseEth s = .next t1 ∧
    (t1.err ≠ 0 → t.err = t1.err ∧ t.errLayer = t1.errLayer) ∧
    (t1.err = 0 → t1.results.valid.word = 0x01 ∧
      (t1.results.eth.etypeClass ≠ 3 → t.err = 0 ∧ t.results = t1.results) ∧
      (t1.results.eth.etypeClass = 3 →
        ∃ t2, exec .parseIpv4
            (hostCommand .parseIpv4 t1.results.eth.payOff t1.results.eth.payLen t1) = .next t2 ∧
        (t2.err ≠ 0 → t.err = t2.err ∧ t.errLayer = t2.errLayer) ∧
        (t2.err = 0 → t2.results.valid.word = 0x02 ∧
          (t2.results.ip.protoClass = 1 →
            ∃ t3, exec .parseIcmp
                (hostCommand .parseIcmp t2.results.ip.payOff t2.results.ip.payLen t2) = .next t3 ∧
              (t3.err ≠ 0 → t.err = t3.err ∧ t.errLayer = t3.errLayer) ∧
              (t3.err = 0 → t3.results.valid.word = 0x10 ∧ t.err = 0 ∧
                t.results.valid.word = 0x13 ∧ t.results.eth = t1.results.eth ∧
                t.results.ip = t2.results.ip ∧ t.results.icmp = t3.results.icmp)) ∧
          (t2.results.ip.protoClass = 3 →
            ∃ t3, exec .parseTcp
                (hostCommand .parseTcp t2.results.ip.payOff t2.results.ip.payLen t2) = .next t3 ∧
              (t3.err ≠ 0 → t.err = t3.err ∧ t.errLayer = t3.errLayer) ∧
              (t3.err = 0 → t3.results.valid.word = 0x04 ∧ t.err = 0 ∧
                t.results.valid.word = 0x07 ∧ t.results.eth = t1.results.eth ∧
                t.results.ip = t2.results.ip ∧ t.results.tcp = t3.results.tcp)) ∧
          (t2.results.ip.protoClass = 4 →
            ∃ t3, exec .parseUdp
                (hostCommand .parseUdp t2.results.ip.payOff t2.results.ip.payLen t2) = .next t3 ∧
              (t3.err ≠ 0 → t.err = t3.err ∧ t.errLayer = t3.errLayer) ∧
              (t3.err = 0 → t3.results.valid.word = 0x08 ∧ t.err = 0 ∧
                t.results.valid.word = 0x0B ∧ t.results.eth = t1.results.eth ∧
                t.results.ip = t2.results.ip ∧ t.results.udp = t3.results.udp)) ∧
          (t2.results.ip.protoClass ≠ 1 → t2.results.ip.protoClass ≠ 3 →
            t2.results.ip.protoClass ≠ 4 →
            t.err = 0 ∧ t.results.valid.word = 0x03 ∧ t.results.eth = t1.results.eth ∧
              t.results.ip = t2.results.ip))))

/-- 41_ethertype R86, with the classes of R85: CLASSIFY_ETYPE, its word, and its result on every
argument, whatever the window. -/
def Obligations.ClassifyEtypeResult : Prop :=
  decode 0x00000008#32 = .command .classifyEtype ∧
  ∀ s : State, ∃ t, exec .classifyEtype s = .next t ∧ EndedWell t 0x20 ∧
    (s.larg.toNat ≤ 1500 → t.results.classRes = 1) ∧
    (1501 ≤ s.larg.toNat → s.larg.toNat ≤ 1535 → t.results.classRes = 2) ∧
    (s.larg = 0x0800 → t.results.classRes = 3) ∧ (s.larg = 0x0806 → t.results.classRes = 4) ∧
    (s.larg = 0x8100 → t.results.classRes = 5) ∧ (s.larg = 0x86DD → t.results.classRes = 6) ∧
    (1536 ≤ s.larg.toNat → s.larg ≠ 0x0800 → s.larg ≠ 0x0806 → s.larg ≠ 0x8100 → s.larg ≠ 0x86DD →
      t.results.classRes = (Config.etypeTable s.larg).getD 0)

/-- 41_ethertype R85: the parameter `ETYPE_TABLE` is a partial map cut to its domain and codes; a map so
cut has values from 1536 on, none of the four fixed codes, and codes from 7 to 254, one that is legal
already stays as it is, and no value has class 255. -/
def Obligations.EtypeTableMeetsItsDomain : Prop :=
  (∃ m, Config.etypeTable = Config.restrictEtypeTable m) ∧
  (∀ m v c, Config.restrictEtypeTable m v = some c →
    1536 ≤ v.toNat ∧ v ≠ 0x0800 ∧ v ≠ 0x0806 ∧ v ≠ 0x8100 ∧ v ≠ 0x86DD ∧ 7 ≤ c.toNat ∧ c.toNat ≤ 254) ∧
  (∀ m : Config.EtypeTable, (∀ v c, m v = some c →
      1536 ≤ v.toNat ∧ v ≠ 0x0800 ∧ v ≠ 0x0806 ∧ v ≠ 0x8100 ∧ v ≠ 0x86DD ∧ 7 ≤ c.toNat ∧
        c.toNat ≤ 254) → Config.restrictEtypeTable m = m) ∧
  (∀ m v, classifyEtherType (Config.restrictEtypeTable m) v ≠ 255)

/-- 43_ipv4 R93 and R95: CLASSIFY_IPPROTO, its word, and its result on every argument: the table on bits
7:0, bits 15:8 ignored. -/
def Obligations.ClassifyIpprotoResult : Prop :=
  decode 0x00000009#32 = .command .classifyIpproto ∧
  ∀ s : State, ∃ t, exec .classifyIpproto s = .next t ∧ EndedWell t 0x20 ∧
    t.results.classRes.toNat =
      (([(1, 1), (2, 2), (6, 3), (17, 4), (41, 5), (89, 6), (132, 7)] : List (Nat × Nat)).lookup
        (s.larg.toNat % 256)).getD 0

/-- 46_icmp R105 and R108: CLASSIFY_ICMPTYPE, its word, and its result on every argument: the table on
bits 7:0, bits 15:8 ignored. -/
def Obligations.ClassifyIcmptypeResult : Prop :=
  decode 0x0000000A#32 = .command .classifyIcmptype ∧
  ∀ s : State, ∃ t, exec .classifyIcmptype s = .next t ∧ EndedWell t 0x20 ∧
    t.results.classRes.toNat =
      (([(0, 1), (3, 2), (4, 3), (5, 4), (8, 5), (9, 6), (10, 7), (11, 8), (12, 9), (13, 10), (14, 11),
        (15, 12), (16, 13), (17, 14), (18, 15), (30, 16), (42, 17), (43, 18)] :
          List (Nat × Nat)).lookup (s.larg.toNat % 256)).getD 0

/-- 20_memory R58 (the engine reads only inside the latched window) and 30_encoding R70 (the outcome is
a pure function): two states that agree on the latched operands and on the window's bytes get the same
outcome from every command. -/
def Obligations.OutcomeDependsOnWindowOnly : Prop :=
  ∀ (i : Instr) (s s' t t' : State), s'.loff = s.loff → s'.llen = s.llen → s'.larg = s.larg →
    SameWindowBytes s s' → exec i s = .next t → exec i s' = .next t' →
    t'.results = t.results ∧ t'.err = t.err ∧ t'.errLayer = t.errLayer

/-- 20_memory R60: every descriptor a command writes lies inside its window, which lies inside the
buffer: it starts at or after LOFF and ends at or before LOFF + LLEN. The options descriptor of a header
without options is (0, 0), which names no byte (10_state R33). -/
def Obligations.DescriptorsStayInWindow : Prop :=
  ∀ (i : Instr) (s t : State), exec i s = .next t →
    let start := s.loff.toNat
    let stop := s.loff.toNat + s.llen.toNat
    (t.results.valid.eth = true →
      start ≤ t.results.eth.payOff.toNat ∧
      t.results.eth.payOff.toNat + t.results.eth.payLen.toNat ≤ stop ∧ stop ≤ Config.bufSize) ∧
    (t.results.valid.ip = true →
      start ≤ t.results.ip.payOff.toNat ∧
      t.results.ip.payOff.toNat + t.results.ip.payLen.toNat ≤ stop ∧
      (t.results.ip.optPresent = true → start ≤ t.results.ip.optOff.toNat) ∧
      (t.results.ip.optPresent = false → t.results.ip.optOff = 0 ∧ t.results.ip.optLen = 0) ∧
      t.results.ip.optOff.toNat + t.results.ip.optLen.toNat ≤ stop ∧ stop ≤ Config.bufSize) ∧
    (t.results.valid.tcp = true →
      start ≤ t.results.tcp.payOff.toNat ∧
      t.results.tcp.payOff.toNat + t.results.tcp.payLen.toNat ≤ stop ∧ stop ≤ Config.bufSize) ∧
    (t.results.valid.udp = true →
      start ≤ t.results.udp.payOff.toNat ∧
      t.results.udp.payOff.toNat + t.results.udp.payLen.toNat ≤ stop ∧ stop ≤ Config.bufSize)

/-! ### Registers -/

/-- 20_memory R51 and 10_state R13 to R21: what a 32-bit read of each control or status address
returns, whatever the engine does; while IDLE, of the result addresses too. -/
def Obligations.AddressMapReads : Prop :=
  ∀ s : State, s.rst = false →
    let rd := fun (a : HostAddr) => (hostRead a .w32 s).rdata
    (rd 0x000 = 0 ∧ rd 0x004 = statusWord s ∧ rd 0x008 = ctrlWord s ∧ rd 0x00C = s.inOff ∧
      rd 0x010 = s.inLen ∧ rd 0x014 = s.classArg.setWidth 32 ∧ (rd 0x020).toNat = Config.bufSize) ∧
    (s.eng = .idle →
      rd 0x018 = s.results.read .classRes ∧ rd 0x01C = s.results.valid.word ∧
      rd 0x040 = s.results.read .ethDstHi ∧ rd 0x044 = s.results.eth.dstLo ∧
      rd 0x048 = s.results.read .ethSrcHi ∧ rd 0x04C = s.results.eth.srcLo ∧
      rd 0x050 = s.results.read .ethType ∧ rd 0x054 = s.results.eth.frameLen ∧
      rd 0x058 = s.results.eth.payOff ∧ rd 0x05C = s.results.eth.payLen ∧
      rd 0x080 = s.results.read .ipW0 ∧ rd 0x084 = s.results.read .ipW1 ∧
      rd 0x088 = s.results.read .ipW2 ∧ rd 0x08C = s.results.read .ipW3 ∧
      rd 0x090 = s.results.read .ipW4 ∧ rd 0x094 = s.results.ip.src ∧ rd 0x098 = s.results.ip.dst ∧
      rd 0x09C = s.results.ip.optOff ∧ rd 0x0A0 = s.results.ip.optLen ∧
      rd 0x0A4 = s.results.ip.payOff ∧ rd 0x0A8 = s.results.ip.payLen ∧
      rd 0x0C0 = s.results.read .tcpPorts ∧ rd 0x0C4 = s.results.tcp.seqNum ∧
      rd 0x0C8 = s.results.tcp.ackNum ∧ rd 0x0CC = s.results.read .tcpCtl ∧
      rd 0x0D0 = s.results.read .tcpWinCsum ∧ rd 0x0D4 = s.results.read .tcpUrg ∧
      rd 0x0D8 = s.results.tcp.payOff ∧ rd 0x0DC = s.results.tcp.payLen ∧
      rd 0x100 = s.results.read .udpPorts ∧ rd 0x104 = s.results.read .udpLenCsum ∧
      rd 0x108 = s.results.udp.payOff ∧ rd 0x10C = s.results.udp.payLen ∧
      rd 0x120 = s.results.read .icmpW0 ∧ rd 0x124 = s.results.read .icmpW1)

/-- 10_state R14, R15 and R20: the fields of `STATUS`, `CTRL` and `VALID` at their bits, reserved bits
0. -/
def Obligations.StatusLayout : Prop :=
  (∀ s : State,
    (statusWord s).getLsbD 0 = decide (s.eng = .busy) ∧ (statusWord s).getLsbD 1 = s.done ∧
    (statusWord s).extractLsb' 2 2 = 0 ∧ (statusWord s).extractLsb' 4 4 = s.err ∧
    (statusWord s).extractLsb' 8 3 = s.errLayer ∧ (statusWord s).extractLsb' 11 5 = 0 ∧
    (statusWord s).getLsbD 16 = s.cmdIgnored ∧ (statusWord s).getLsbD 17 = s.writeIgnored ∧
    (statusWord s).getLsbD 18 = s.accErr ∧ (statusWord s).extractLsb' 19 13 = 0 ∧
    (ctrlWord s).getLsbD 0 = s.irqEn ∧ (ctrlWord s).extractLsb' 1 31 = 0) ∧
  (∀ v : Valid,
    v.word.getLsbD 0 = v.eth ∧ v.word.getLsbD 1 = v.ip ∧ v.word.getLsbD 2 = v.tcp ∧
    v.word.getLsbD 3 = v.udp ∧ v.word.getLsbD 4 = v.icmp ∧ v.word.getLsbD 5 = v.cls ∧
    v.word.extractLsb' 6 26 = 0)

/-- 10_state R19, R22 to R24 and R27 to R31: the fields of the Ethernet and IPv4 registers at their
bits, reserved bits 0. -/
def Obligations.EthIpRegisterLayout : Prop :=
  ∀ x : Results,
    (x.read .classRes).extractLsb' 0 8 = x.classRes ∧ (x.read .classRes).extractLsb' 8 24 = 0 ∧
    (x.read .ethDstHi).extractLsb' 0 16 = x.eth.dstHi ∧ (x.read .ethDstHi).extractLsb' 16 16 = 0 ∧
    (x.read .ethSrcHi).extractLsb' 0 16 = x.eth.srcHi ∧ (x.read .ethSrcHi).extractLsb' 16 16 = 0 ∧
    (x.read .ethType).extractLsb' 0 16 = x.eth.ethertype ∧
    (x.read .ethType).extractLsb' 16 8 = x.eth.etypeClass ∧
    (x.read .ethType).getLsbD 24 = x.eth.vlanPresent ∧ (x.read .ethType).extractLsb' 25 7 = 0 ∧
    (x.read .ipW0).extractLsb' 0 4 = x.ip.version ∧ (x.read .ipW0).extractLsb' 4 4 = 0 ∧
    (x.read .ipW0).extractLsb' 8 6 = x.ip.ihlBytes ∧ (x.read .ipW0).extractLsb' 14 2 = 0 ∧
    (x.read .ipW0).extractLsb' 16 6 = x.ip.dscp ∧ (x.read .ipW0).extractLsb' 22 2 = 0 ∧
    (x.read .ipW0).extractLsb' 24 2 = x.ip.ecn ∧ (x.read .ipW0).extractLsb' 26 6 = 0 ∧
    (x.read .ipW1).extractLsb' 0 16 = x.ip.totalLen ∧ (x.read .ipW1).extractLsb' 16 16 = x.ip.ident ∧
    (x.read .ipW2).extractLsb' 0 13 = x.ip.fragOff ∧ (x.read .ipW2).extractLsb' 13 3 = 0 ∧
    (x.read .ipW2).extractLsb' 16 3 = x.ip.flags ∧ (x.read .ipW2).extractLsb' 19 13 = 0 ∧
    (x.read .ipW3).extractLsb' 0 8 = x.ip.ttl ∧ (x.read .ipW3).extractLsb' 8 8 = x.ip.proto ∧
    (x.read .ipW3).extractLsb' 16 16 = x.ip.hdrCsum ∧
    (x.read .ipW4).extractLsb' 0 4 = x.ip.protoClass ∧ (x.read .ipW4).extractLsb' 4 4 = 0 ∧
    (x.read .ipW4).getLsbD 8 = x.ip.optPresent ∧ (x.read .ipW4).extractLsb' 9 23 = 0

/-- 10_state R35, R37 to R39, R41, R42, R44 and R45: the fields of the TCP, UDP and ICMP registers at
their bits, reserved bits 0. -/
def Obligations.TransportRegisterLayout : Prop :=
  ∀ x : Results,
    (x.read .tcpPorts).extractLsb' 16 16 = x.tcp.srcPort ∧
    (x.read .tcpPorts).extractLsb' 0 16 = x.tcp.dstPort ∧
    (x.read .tcpCtl).extractLsb' 0 8 = x.tcp.flags ∧ (x.read .tcpCtl).extractLsb' 8 1 = x.tcp.ns ∧
    (x.read .tcpCtl).getLsbD 9 = x.tcp.optPresent ∧ (x.read .tcpCtl).extractLsb' 10 6 = 0 ∧
    (x.read .tcpCtl).extractLsb' 16 4 = x.tcp.dataOff ∧ (x.read .tcpCtl).extractLsb' 20 4 = 0 ∧
    (x.read .tcpCtl).extractLsb' 24 6 = x.tcp.hdrLen ∧ (x.read .tcpCtl).extractLsb' 30 2 = 0 ∧
    (x.read .tcpWinCsum).extractLsb' 16 16 = x.tcp.window ∧
    (x.read .tcpWinCsum).extractLsb' 0 16 = x.tcp.csum ∧
    (x.read .tcpUrg).extractLsb' 0 16 = x.tcp.urgPtr ∧ (x.read .tcpUrg).extractLsb' 16 16 = 0 ∧
    (x.read .udpPorts).extractLsb' 16 16 = x.udp.srcPort ∧
    (x.read .udpPorts).extractLsb' 0 16 = x.udp.dstPort ∧
    (x.read .udpLenCsum).extractLsb' 16 16 = x.udp.length ∧
    (x.read .udpLenCsum).extractLsb' 0 16 = x.udp.csum ∧
    (x.read .icmpW0).extractLsb' 0 8 = x.icmp.icmpType ∧ (x.read .icmpW0).extractLsb' 8 8 = x.icmp.code ∧
    (x.read .icmpW0).extractLsb' 16 16 = x.icmp.csum ∧
    (x.read .icmpW1).extractLsb' 0 5 = x.icmp.typeClass ∧ (x.read .icmpW1).extractLsb' 5 27 = 0

/-- 10_state R14 (with 00_scope R9): a write to `STATUS` clears each `W1C` bit written 1, at any time, and
changes nothing else. -/
def Obligations.StatusWriteClearsStickyBits : Prop :=
  ∀ (v : Word) (s : State), s.rst = false →
    hostWrite 0x0004#16 .w32 v s =
      { s with
        done := if v.getLsbD 1 then false else s.done
        cmdIgnored := if v.getLsbD 16 then false else s.cmdIgnored
        writeIgnored := if v.getLsbD 17 then false else s.writeIgnored
        accErr := if v.getLsbD 18 then false else s.accErr }

/-- 10_state R12, R15 to R18: what the writable registers take while IDLE, that `CTRL` takes a write at
any time, and that a write to a read-only register does nothing. -/
def Obligations.RegisterWrites : Prop :=
  ∀ (v : Word) (s : State), s.rst = false →
    hostWrite 0x0008#16 .w32 v s = { s with irqEn := v.getLsbD 0 } ∧
    (s.eng = .idle →
      hostWrite 0x000C#16 .w32 v s = { s with inOff := v } ∧
      hostWrite 0x0010#16 .w32 v s = { s with inLen := v } ∧
      hostWrite 0x0014#16 .w32 v s = { s with classArg := v.setWidth 16 }) ∧
    (∀ a : HostAddr, a.toNat % 4 = 0 → RegisterRow a.toNat → 0x0018 ≤ a.toNat →
      hostWrite a .w32 v s = s)

/-- 10_state R48: while BUSY, a read of a result register returns a value drawn afresh, and nothing of
PKTHP changes; while IDLE it returns the register's contents, and no value is drawn. -/
def Obligations.BusyResultReadsAreUnspecified : Prop :=
  ∀ (r : Reg) (s : State), r.isResult = true → s.rst = false →
    (s.eng = .busy → hostRead (busAddr r.addr) .w32 s =
      { s with rdata := Config.busyRead s.draws, draws := s.draws + 1 }) ∧
    (s.eng = .idle → hostRead (busAddr r.addr) .w32 s = { s with rdata := s.results.read r })

/-! ### Host accesses -/

/-- 20_memory R54: 8-bit accesses to the buffer: what a read returns, which byte a write stores, and that
nothing else of the state changes but WRITE_IGNORED while BUSY (R56). -/
def Obligations.BufferByteAccess : Prop :=
  ∀ (s : State) (a : Nat) (v : Word), a < Config.bufSize → s.rst = false →
    hostRead (busAddr (0x1000 + a)) .w8 s = { s with rdata := (byteAt s a).setWidth 32 } ∧
    (s.eng = .idle →
      (∀ x, byteAt (hostWrite (busAddr (0x1000 + a)) .w8 v s) x =
        if x = a then v.extractLsb' 0 8 else byteAt s x) ∧
      hostWrite (busAddr (0x1000 + a)) .w8 v s =
        { s with buf := (hostWrite (busAddr (0x1000 + a)) .w8 v s).buf }) ∧
    (s.eng = .busy → hostWrite (busAddr (0x1000 + a)) .w8 v s = { s with writeIgnored := true })

/-- 20_memory R55: 32-bit accesses to the buffer, the lowest address in bits 7:0; a misaligned one is
illegal. A read changes nothing but what it returns; a write changes nothing but the four bytes, or only
WRITE_IGNORED while BUSY (R56). -/
def Obligations.BufferWordAccess : Prop :=
  ∀ (s : State) (a : Nat) (v : Word), a < Config.bufSize → s.rst = false →
    (a % 4 = 0 → hostRead (busAddr (0x1000 + a)) .w32 s =
      { s with rdata := byteAt s (a + 3) ++ byteAt s (a + 2) ++ byteAt s (a + 1) ++ byteAt s a }) ∧
    (a % 4 = 0 → s.eng = .idle →
      (∀ x, byteAt (hostWrite (busAddr (0x1000 + a)) .w32 v s) x =
        if x = a then v.extractLsb' 0 8 else if x = a + 1 then v.extractLsb' 8 8
        else if x = a + 2 then v.extractLsb' 16 8 else if x = a + 3 then v.extractLsb' 24 8
        else byteAt s x) ∧
      hostWrite (busAddr (0x1000 + a)) .w32 v s =
        { s with buf := (hostWrite (busAddr (0x1000 + a)) .w32 v s).buf }) ∧
    (a % 4 = 0 → s.eng = .busy →
      hostWrite (busAddr (0x1000 + a)) .w32 v s = { s with writeIgnored := true }) ∧
    (a % 4 ≠ 0 → hostWrite (busAddr (0x1000 + a)) .w32 v s = { s with accErr := true } ∧
      hostRead (busAddr (0x1000 + a)) .w32 s = { s with rdata := 0, accErr := true })

/-- 20_memory R64: after an 8-bit write, the 32-bit read of the aligned word shows the byte in its lane,
and the engine sees it. -/
def Obligations.MixedWidthViewsAgree : Prop :=
  ∀ (s : State) (a : Nat) (v : Word), a < Config.bufSize → s.rst = false → s.eng = .idle →
    let t := hostWrite (busAddr (0x1000 + a)) .w8 v s
    ((hostRead (busAddr (0x1000 + a / 4 * 4)) .w32 t).rdata).extractLsb' (8 * (a % 4)) 8 =
      v.extractLsb' 0 8 ∧
    byteAt t a = v.extractLsb' 0 8 ∧ (hostRead (busAddr (0x1000 + a)) .w8 t).rdata = 
      (v.extractLsb' 0 8).setWidth 32

/-- 20_memory R58 beside R55: of a word the host writes little-endian, the engine reads the bytes in the
other order, and the host reads back what it wrote. -/
def Obligations.EngineReadsBigEndian : Prop :=
  ∀ (s : State) (a : Nat) (v : Word), a + 3 < Config.bufSize → a % 4 = 0 → s.rst = false →
    s.eng = .idle →
    let t := hostWrite (busAddr (0x1000 + a)) .w32 v s
    memRead32 (byteAt t) a =
      v.extractLsb' 0 8 ++ v.extractLsb' 8 8 ++ v.extractLsb' 16 8 ++ v.extractLsb' 24 8 ∧
    memRead16 (byteAt t) a = v.extractLsb' 0 8 ++ v.extractLsb' 8 8 ∧
    memRead8 (byteAt t) (a + 3) = v.extractLsb' 24 8 ∧
    (hostRead (busAddr (0x1000 + a)) .w32 t).rdata = v

/-- 20_memory R53, with the illegal accesses of R52, R55 and R57: an access that the address map does not
allow reads 0, sets ACC_ERR and does nothing else; an access it allows does not set ACC_ERR. -/
def Obligations.IllegalAccessSetsAccErrOnly : Prop :=
  ∀ (addr : HostAddr) (w : Width) (s : State), s.rst = false →
    (¬LegalAccess addr w →
      hostRead addr w s = { s with rdata := 0, accErr := true } ∧
      ∀ v, hostWrite addr w v s = { s with accErr := true }) ∧
    (LegalAccess addr w →
      (hostRead addr w s).accErr = s.accErr ∧
      ∀ v, (hostWrite addr w v s).accErr = true → s.accErr = true)

/-- 20_memory R56: the writes that are dropped while BUSY, those that are not, and that no read is
blocked: a register other than a result register reads as while IDLE, and so does the buffer. -/
def Obligations.WritesWhileBusy : Prop :=
  ∀ s : State, s.eng = .busy → s.rst = false →
    (∀ (addr : HostAddr) (w : Width) (v : Word), LegalAccess addr w →
      BufferRow addr.toNat ∨ addr = 0x000C ∨ addr = 0x0010 ∨ addr = 0x0014 →
      hostWrite addr w v s = { s with writeIgnored := true }) ∧
    (∀ v : Word, hostWrite 0x0008#16 .w32 v s = { s with irqEn := v.getLsbD 0 }) ∧
    (∀ v : Word, hostWrite 0x0004#16 .w32 v s = writeStatus v s) ∧
    (∀ v : Word, hostWrite 0x0000#16 .w32 v s = { s with cmdIgnored := true }) ∧
    (∀ r : Reg, r.isResult = false → (hostRead (busAddr r.addr) .w32 s).rdata = readReg s r) ∧
    (∀ a, a < Config.bufSize →
      (hostRead (busAddr (0x1000 + a)) .w8 s).rdata = (byteAt s a).setWidth 32 ∧
      (a % 4 = 0 → (hostRead (busAddr (0x1000 + a)) .w32 s).rdata =
        byteAt s (a + 3) ++ byteAt s (a + 2) ++ byteAt s (a + 1) ++ byteAt s a))

/-- 20_memory R57: a legal read changes nothing of PKTHP; it only hands data to the host (the fields
`rdata` and `draws` are the model's own). -/
def Obligations.ReadsHaveNoSideEffect : Prop :=
  ∀ (addr : HostAddr) (w : Width) (s : State), LegalAccess addr w ∨ s.rst = true →
    ∃ d k, hostRead addr w s = { s with rdata := d, draws := k }

/-! ### Rules of the whole machine -/

/-- 20_memory R59 and 70_reset_and_hazards R134: while a command is in flight, no step changes a byte of
the buffer, an input register or a latched operand, unless it is reset. Where the step is the commit, that
the latched operands stay is the model's choice (log entry 13). -/
def Obligations.InputsStableWhileBusy : Prop :=
  ∀ s t : State, s.eng = .busy → step s = .next t → ¬(s.rst = false ∧ t.rst = true) →
    (∀ a, byteAt t a = byteAt s a) ∧ t.inOff = s.inOff ∧ t.inLen = s.inLen ∧
    t.classArg = s.classArg ∧ t.lop = s.lop ∧ t.loff = s.loff ∧ t.llen = s.llen ∧ t.larg = s.larg

/-- 10_state R48 and 70_reset_and_hazards R131: result registers change only when the engine commits or
at reset; so after a `wait` they stay until the next command. For a BUSY state this speaks of contents
that no read shows and R48 leaves unspecified: that the old ones stay there is the model's choice (log
entry 12). -/
def Obligations.ResultsChangeOnlyAtCommit : Prop :=
  ∀ s t : State, step s = .next t → engineTurn s = false → ¬(s.rst = false ∧ t.rst = true) →
    t.results = s.results

/-- 60_exceptions R120: a sticky bit is cleared only by writing 1 to it (or by reset). -/
def Obligations.StickyBitsClearedOnlyByWritingOne : Prop :=
  ∀ s t : State, step s = .next t → ¬(s.rst = false ∧ t.rst = true) →
    (s.cmdIgnored = true → t.cmdIgnored = false → ∃ late v rest, v.getLsbD 16 = true ∧
      s.agenda = ⟨late, .access (.write 0x0004#16 .w32 v)⟩ :: rest) ∧
    (s.writeIgnored = true → t.writeIgnored = false → ∃ late v rest, v.getLsbD 17 = true ∧
      s.agenda = ⟨late, .access (.write 0x0004#16 .w32 v)⟩ :: rest) ∧
    (s.accErr = true → t.accErr = false → ∃ late v rest, v.getLsbD 18 = true ∧
      s.agenda = ⟨late, .access (.write 0x0004#16 .w32 v)⟩ :: rest)

/-- 60_exceptions R120: ERR and ERR_LAYER keep their values until the next command is accepted, which
clears them, or commits, or reset; DONE is cleared only by writing 1 to it, by acceptance, or by reset. -/
def Obligations.ErrorAndDoneLastUntilCleared : Prop :=
  ∀ s t : State, step s = .next t → ¬(s.rst = false ∧ t.rst = true) →
    (t.err ≠ s.err ∨ t.errLayer ≠ s.errLayer → engineTurn s = true ∨
      (s.eng = .idle ∧ t.eng = .busy ∧ t.err = 0 ∧ t.errLayer = 0 ∧ ∃ late w rest,
        s.agenda = ⟨late, .access (.write 0x0000#16 .w32 w)⟩ :: rest)) ∧
    (s.done = true → t.done = false →
      (∃ late v rest, v.getLsbD 1 = true ∧
        s.agenda = ⟨late, .access (.write 0x0004#16 .w32 v)⟩ :: rest) ∨
      (s.eng = .idle ∧ t.eng = .busy ∧ ∃ late w rest,
        s.agenda = ⟨late, .access (.write 0x0000#16 .w32 w)⟩ :: rest))

/-- 10_state R47: `irq` is `DONE AND IRQ_EN`, 0 at reset. With 60_exceptions R121: it rises at every
completion that finds IRQ_EN set, of a command that succeeds or fails, and each of the three ways to clear
it works. -/
def Obligations.IrqFollowsCompletion : Prop :=
  (∀ s : State, irq s = (s.done && s.irqEn)) ∧ irq State.reset = false ∧
  (∀ s t : State, engineMove s = .next t → irq t = s.irqEn) ∧
  (∀ s : State, s.rst = false → irq (hostWrite 0x0004#16 .w32 0x00000002 s) = false) ∧
  (∀ s : State, s.rst = false → irq (hostWrite 0x0008#16 .w32 0x00000000 s) = false) ∧
  (∀ (w : Word) (s : State), s.rst = false → s.eng = .idle →
    irq (hostWrite 0x0000#16 .w32 w s) = false)

/-- 60_exceptions R121 and R122: command completion is the one interrupt source. A step raises `irq` only
when the engine commits, or when the host enables it with a `CTRL` write while a completion is pending. -/
def Obligations.IrqRisesOnlyByCompletionOrEnable : Prop :=
  ∀ s t : State, step s = .next t → irq s = false → irq t = true →
    (engineTurn s = true ∧ s.irqEn = true) ∨
    (s.done = true ∧ ∃ late v rest, v.getLsbD 0 = true ∧
      s.agenda = ⟨late, .access (.write 0x0008#16 .w32 v)⟩ :: rest)

/-- 70_reset_and_hazards R136: the first `STATUS` read after an accepted `CMD` write shows BUSY, or BUSY 0
with DONE 1 when the commit came first. -/
def Obligations.NoStaleCompletion : Prop :=
  ∀ (w : Word) (s u : State), s.eng = .idle → s.rst = false →
    let t := hostWrite 0x0000#16 .w32 w s
    ((hostRead 0x0004#16 .w32 t).rdata.getLsbD 0 = true) ∧
    (engineMove t = .next u →
      (hostRead 0x0004#16 .w32 u).rdata.getLsbD 0 = false ∧
      (hostRead 0x0004#16 .w32 u).rdata.getLsbD 1 = true)

/-- 30_encoding R83: the loop `wait` goes round while a `STATUS` read shows BUSY, and ends at the first
read that shows `BUSY = 0`. The count of polls is the model's own (log entry 14). -/
def Obligations.WaitEndsWhenIdle : Prop :=
  ∀ (s t : State) (late : Bool) (polls : Nat) (rest : List Input),
    s.agenda = ⟨late, .wait polls⟩ :: rest → engineTurn s = false → s.rst = false →
    step s = .next t →
    (s.eng = .busy → 0 < polls ∧ t.agenda = ⟨late, .wait (polls - 1)⟩ :: rest ∧
      t.rdata.getLsbD 0 = true) ∧
    (s.eng = .idle → t.agenda = rest ∧ t.rdata.getLsbD 0 = false ∧ t.rdata = statusWord s)

/-- 70_reset_and_hazards R129: the state after reset; each byte of the buffer is one free draw. -/
def Obligations.ResetStateValues : Prop :=
  let s := State.reset
  s.eng = .idle ∧ statusWord s = 0 ∧ ctrlWord s = 0 ∧ s.inOff = 0 ∧ s.inLen = 0 ∧ s.classArg = 0 ∧
  (∀ r : Reg, r.isResult = true → s.results.read r = 0) ∧
  (readReg s .bufSz).toNat = Config.bufSize ∧ s.lop = 0 ∧ s.loff = 0 ∧ s.llen = 0 ∧ s.larg = 0 ∧
  (∀ a, byteAt s a = Config.resetByte 0 a) ∧ irq s = false

/-- 70_reset_and_hazards R128: asserting `rst` puts the block in its reset state, abandoning a command in
flight without a commit; while it is asserted an access does nothing and a read returns 0; releasing it
changes nothing else. Each assertion draws the buffer's bytes afresh. Nothing but reset ends a command
before its commit. -/
def Obligations.ResetAbandonsCommand : Prop :=
  ∀ s : State, s.rst = false →
    let t := setRst true s
    HeldInReset t ∧ t.eng = .idle ∧ t.done = false ∧ irq t = false ∧ t.results = Results.zero ∧
    (∀ a, byteAt t a = Config.resetByte (s.resets + 1) a) ∧
    (∀ addr w v, hostWrite addr w v t = t) ∧
    (∀ addr w, hostRead addr w t = { t with rdata := 0 }) ∧
    setRst false t = { t with rst := false } ∧
    (∀ u, s.eng = .busy → step s = .next u → u.eng = .idle → engineTurn s = true ∨ u.rst = true)

/-- 30_encoding R82: the bus transactions of each operation of a host program: `wr` and `rd` of every
register at its address of 20_memory R51, `wrb` and `wrw` at every offset, `cmd` of every command, the
comment, and `wait`, each round of which is one `HostRead(0x004, 32)` (R83). R82 gives `wrw` only for an
offset that is a multiple of 4: its expansion at any other is the model's choice (log entry 19). Past host
address 0xFFFF the address wraps, which is the model's choice too (log entry 20), as is the count of rounds
(log entry 14). -/
def Obligations.HostNotation : Prop :=
  (∀ p ∈ ([(.cmd, 0x000), (.status, 0x004), (.ctrl, 0x008), (.inOff, 0x00C), (.inLen, 0x010),
      (.classArg, 0x014), (.classRes, 0x018), (.valid, 0x01C), (.bufSz, 0x020), (.ethDstHi, 0x040),
      (.ethDstLo, 0x044), (.ethSrcHi, 0x048), (.ethSrcLo, 0x04C), (.ethType, 0x050), (.ethFrameLen, 0x054),
      (.ethPayOff, 0x058), (.ethPayLen, 0x05C), (.ipW0, 0x080), (.ipW1, 0x084), (.ipW2, 0x088),
      (.ipW3, 0x08C), (.ipW4, 0x090), (.ipSrc, 0x094), (.ipDst, 0x098), (.ipOptOff, 0x09C),
      (.ipOptLen, 0x0A0), (.ipPayOff, 0x0A4), (.ipPayLen, 0x0A8), (.tcpPorts, 0x0C0), (.tcpSeq, 0x0C4),
      (.tcpAck, 0x0C8), (.tcpCtl, 0x0CC), (.tcpWinCsum, 0x0D0), (.tcpUrg, 0x0D4), (.tcpPayOff, 0x0D8),
      (.tcpPayLen, 0x0DC), (.udpPorts, 0x100), (.udpLenCsum, 0x104), (.udpPayOff, 0x108), (.udpPayLen, 0x10C),
      (.icmpW0, 0x120), (.icmpW1, 0x124)] : List (Reg × HostAddr)),
    (∀ v : Word, (HostOp.wr p.1 v).actions = [.access (.write p.2 .w32 v)]) ∧
    (HostOp.rd p.1).actions = [.access (.read p.2 .w32)]) ∧
  (∀ (off : Nat) (bytes : List Byte), (HostOp.wrb off bytes).actions.length = bytes.length ∧
    ∀ i b, bytes[i]? = some b → (HostOp.wrb off bytes).actions[i]? =
      some (Action.access (.write (BitVec.ofNat 16 (0x1000 + off + i)) .w8 (b.setWidth 32)))) ∧
  (∀ (off : Nat) (v : Word), (HostOp.wrw off v).actions =
    [.access (.write (BitVec.ofNat 16 (0x1000 + off)) .w32 v)]) ∧
  (∀ p ∈ ([(.parseEth, 1), (.parseIpv4, 2), (.parseTcp, 3), (.parseUdp, 4), (.parseIcmp, 5),
      (.parseFrame, 6), (.classifyEtype, 8), (.classifyIpproto, 9), (.classifyIcmptype, 10)] :
        List (Instr × Word)),
    (HostOp.cmd p.1).actions = [.access (.write 0x0000#16 .w32 p.2)]) ∧
  HostOp.comment.actions = [] ∧
  (∀ polls : Nat, (HostOp.wait polls).actions = [.wait polls]) ∧
  (∀ (late : Bool) (polls : Nat) (s : State),
    let r := hostRead 0x0004#16 .w32 s
    perform ⟨late, .wait polls⟩ s = { r with
      agenda := if r.rdata.getLsbD 0 then ⟨late, .wait (polls - 1)⟩ :: s.agenda else s.agenda })

/-! ### The invariant -/

/-- The invariant holds after reset. -/
def Obligations.ResetMeetsInvariant : Prop := Invariant State.reset

/-- Every step keeps the invariant, from every state that meets it, whatever the agenda holds: the
reset state while `rst` is asserted (70_reset_and_hazards R128), cleared status and latched operands
while BUSY (30_encoding R68, 10_state R49), legal error codes (60_exceptions R114, R115), no result after
an error (30_encoding R71), sound result groups with descriptors inside the buffer (20_memory R60), and
the canonical buffer. -/
def Obligations.StepKeepsInvariant : Prop :=
  ∀ s t : State, Invariant s → step s = .next t → Invariant t
end

