-- ==== Sys2Proof/Laws/Bits.lean ====
section
/-! SUPPORT. Reading a field back out of a register that `place` put together, and a word made of four
bytes as a number. -/

namespace Sys2Proof.Machine

theorem extract_or {l n : Nat} (x y : Word) :
    (x ||| y).extractLsb' l n = x.extractLsb' l n ||| y.extractLsb' l n := by
  ext i hi; simp

/-- A field is read back whole. -/
theorem extract_place_same {w lo : Nat} (x : BitVec w) (h : lo + w ≤ 32) :
    (place x lo).extractLsb' lo w = x := by
  ext i hi
  have h1 : lo + i < 32 := by omega
  simp [place, h1, BitVec.getLsbD_eq_getElem hi]

/-- Bits above a field are 0. -/
theorem extract_place_above {w lo l n : Nat} (x : BitVec w) (h : lo + w ≤ l) :
    (place x lo).extractLsb' l n = 0#n := by
  ext i hi
  simp only [place, BitVec.getElem_extractLsb', BitVec.getLsbD_shiftLeft, BitVec.getLsbD_setWidth]
  rw [BitVec.getLsbD_of_ge x _ (by omega)]
  simp

/-- Bits below a field are 0. -/
theorem extract_place_below {w lo l n : Nat} (x : BitVec w) (h : l + n ≤ lo) :
    (place x lo).extractLsb' l n = 0#n := by
  ext i hi
  have h1 : l + i < lo := by omega
  simp [place, h1]

theorem getLsbD_place {w : Nat} (x : BitVec w) (lo i : Nat) :
    (place x lo).getLsbD i = (decide (i < 32) && decide (lo ≤ i) && x.getLsbD (i - lo)) := by
  simp only [place, BitVec.getLsbD_shiftLeft, BitVec.getLsbD_setWidth]
  by_cases h : i < 32 <;> by_cases h2 : lo ≤ i
  · simp [h, h2, Nat.not_lt.2 h2, Nat.lt_of_le_of_lt (Nat.sub_le i lo) h]
  · simp [h, h2, Nat.lt_of_not_le h2]
  · simp [h]
  · simp [h]

theorem getLsbD_flag (b : Bool) (lo i : Nat) :
    (flag b lo).getLsbD i = (decide (i < 32) && decide (i = lo) && b) := by
  simp only [flag, getLsbD_place, BitVec.getLsbD_ofBool]
  by_cases h : i < 32 <;> by_cases h2 : i = lo <;> by_cases h3 : lo ≤ i <;>
    (simp [h, h2, h3]; try omega)

/-- Four bytes put together, the first the most significant (20_memory R58). -/
theorem append4_toNat (a b c d : Byte) :
    (a ++ b ++ c ++ d : BitVec 32).toNat =
      ((a.toNat * 256 + b.toNat) * 256 + c.toNat) * 256 + d.toNat := by
  have h1 := Nat.two_pow_add_eq_or_of_lt (i := 8) b.isLt a.toNat
  have h2 := Nat.two_pow_add_eq_or_of_lt (i := 8) c.isLt (a ++ b).toNat
  have h3 := Nat.two_pow_add_eq_or_of_lt (i := 8) d.isLt (a ++ b ++ c).toNat
  have e1 : (a ++ b).toNat = a.toNat * 256 + b.toNat := by
    rw [BitVec.toNat_append, Nat.shiftLeft_eq, Nat.mul_comm]; omega
  have e2 : (a ++ b ++ c).toNat = (a ++ b).toNat * 256 + c.toNat := by
    rw [BitVec.toNat_append, Nat.shiftLeft_eq, Nat.mul_comm]; omega
  have e3 : (a ++ b ++ c ++ d).toNat = (a ++ b ++ c).toNat * 256 + d.toNat := by
    rw [BitVec.toNat_append, Nat.shiftLeft_eq, Nat.mul_comm]; omega
  rw [e3, e2, e1]

end Sys2Proof.Machine
end

