-- ==== Sys2Proof/Laws/Config.lean ====
section
/-! SUPPORT. What the spec fixes about the parameters (00_scope R5, 41_ethertype R85). -/

namespace Sys2Proof.Machine

theorem bufSize_ge : 1524 ≤ Config.bufSize := by simp [Config.bufSize, Config.minBufSize]

theorem bufSize_le : Config.bufSize ≤ 61440 := by
  simp only [Config.bufSize, Config.minBufSize]; omega

theorem bufSize_mod : Config.bufSize % 4 = 0 := by
  simp only [Config.bufSize, Config.minBufSize]; omega

theorem maxLatency_pos : 1 ≤ Config.maxLatency := by simp [Config.maxLatency]

/-- `exceedsBuffer` is the comparison of 30_encoding R70. -/
theorem exceedsBuffer_iff (x : Nat) : exceedsBuffer x = true ↔ Config.bufSize < x := by
  have := bufSize_ge
  rw [exceedsBuffer, Config.minBufSize, Bool.and_eq_true, decide_eq_true_iff, decide_eq_true_iff]
  exact ⟨fun h => h.2, fun h => ⟨Nat.lt_of_le_of_lt this h, h⟩⟩

theorem exceedsBuffer_false (x : Nat) : exceedsBuffer x = false ↔ x ≤ Config.bufSize := by
  rw [← Bool.not_eq_true, exceedsBuffer_iff]; exact Nat.not_lt

/-- An entry of a restricted table has a value of the domain and a code from 7 to 254. -/
theorem restrictEtypeTable_some (t : Config.EtypeTable) (v : BitVec 16) (c : BitVec 8)
    (h : Config.restrictEtypeTable t v = some c) :
    Config.etypeDomain v = true ∧ t v = some c ∧ 7 ≤ c.toNat ∧ c.toNat ≤ 254 := by
  simp only [Config.restrictEtypeTable] at h
  split at h
  · rename_i hd
    cases ht : t v with
    | none => simp [ht] at h
    | some d =>
      simp only [ht, Option.filter_some, Config.etypeCodeLegal, Bool.and_eq_true,
        decide_eq_true_eq] at h
      split at h
      · rename_i hc
        cases h
        exact ⟨hd, rfl, hc⟩
      · cases h
  · cases h

/-- Restricting twice changes nothing, so every table that meets R85 is its own restriction. -/
theorem restrictEtypeTable_idem (t : Config.EtypeTable) :
    Config.restrictEtypeTable (Config.restrictEtypeTable t) = Config.restrictEtypeTable t := by
  funext v
  simp only [Config.restrictEtypeTable]
  split
  · cases t v <;> simp [Option.filter]
    split <;> simp_all
  · rfl

end Sys2Proof.Machine
end

