-- ==== Sys2Proof/Laws/State.lean ====
section
/-! SUPPORT. What each shared update does to each field of `State`: one lemma per field and update. -/

namespace Sys2Proof.Machine

/-! ### `accept` -/

@[simp] theorem accept_eng (w : Word) (s : State) : (accept w s).eng = .busy := rfl
@[simp] theorem accept_lop (w : Word) (s : State) : (accept w s).lop = w := rfl
@[simp] theorem accept_loff (w : Word) (s : State) : (accept w s).loff = s.inOff := rfl
@[simp] theorem accept_llen (w : Word) (s : State) : (accept w s).llen = s.inLen := rfl
@[simp] theorem accept_larg (w : Word) (s : State) : (accept w s).larg = s.classArg := rfl
@[simp] theorem accept_done (w : Word) (s : State) : (accept w s).done = false := rfl
@[simp] theorem accept_err (w : Word) (s : State) : (accept w s).err = 0 := rfl
@[simp] theorem accept_errLayer (w : Word) (s : State) : (accept w s).errLayer = 0 := rfl
@[simp] theorem accept_cmdIgnored (w : Word) (s : State) :
    (accept w s).cmdIgnored = s.cmdIgnored := rfl
@[simp] theorem accept_writeIgnored (w : Word) (s : State) :
    (accept w s).writeIgnored = s.writeIgnored := rfl
@[simp] theorem accept_accErr (w : Word) (s : State) : (accept w s).accErr = s.accErr := rfl
@[simp] theorem accept_irqEn (w : Word) (s : State) : (accept w s).irqEn = s.irqEn := rfl
@[simp] theorem accept_inOff (w : Word) (s : State) : (accept w s).inOff = s.inOff := rfl
@[simp] theorem accept_inLen (w : Word) (s : State) : (accept w s).inLen = s.inLen := rfl
@[simp] theorem accept_classArg (w : Word) (s : State) : (accept w s).classArg = s.classArg := rfl
@[simp] theorem accept_results (w : Word) (s : State) : (accept w s).results = s.results := rfl
@[simp] theorem accept_buf (w : Word) (s : State) : (accept w s).buf = s.buf := rfl
@[simp] theorem accept_rst (w : Word) (s : State) : (accept w s).rst = s.rst := rfl
@[simp] theorem accept_agenda (w : Word) (s : State) : (accept w s).agenda = s.agenda := rfl
@[simp] theorem accept_rdata (w : Word) (s : State) : (accept w s).rdata = s.rdata := rfl
@[simp] theorem accept_draws (w : Word) (s : State) : (accept w s).draws = s.draws := rfl
@[simp] theorem accept_resets (w : Word) (s : State) : (accept w s).resets = s.resets := rfl

/-! ### `commitOk` -/

@[simp] theorem commitOk_eng (g : Groups) (s : State) : (commitOk g s).eng = .idle := rfl
@[simp] theorem commitOk_lop (g : Groups) (s : State) : (commitOk g s).lop = s.lop := rfl
@[simp] theorem commitOk_loff (g : Groups) (s : State) : (commitOk g s).loff = s.loff := rfl
@[simp] theorem commitOk_llen (g : Groups) (s : State) : (commitOk g s).llen = s.llen := rfl
@[simp] theorem commitOk_larg (g : Groups) (s : State) : (commitOk g s).larg = s.larg := rfl
@[simp] theorem commitOk_done (g : Groups) (s : State) : (commitOk g s).done = true := rfl
@[simp] theorem commitOk_err (g : Groups) (s : State) : (commitOk g s).err = 0 := rfl
@[simp] theorem commitOk_errLayer (g : Groups) (s : State) : (commitOk g s).errLayer = 0 := rfl
@[simp] theorem commitOk_cmdIgnored (g : Groups) (s : State) :
    (commitOk g s).cmdIgnored = s.cmdIgnored := rfl
@[simp] theorem commitOk_writeIgnored (g : Groups) (s : State) :
    (commitOk g s).writeIgnored = s.writeIgnored := rfl
@[simp] theorem commitOk_accErr (g : Groups) (s : State) : (commitOk g s).accErr = s.accErr := rfl
@[simp] theorem commitOk_irqEn (g : Groups) (s : State) : (commitOk g s).irqEn = s.irqEn := rfl
@[simp] theorem commitOk_inOff (g : Groups) (s : State) : (commitOk g s).inOff = s.inOff := rfl
@[simp] theorem commitOk_inLen (g : Groups) (s : State) : (commitOk g s).inLen = s.inLen := rfl
@[simp] theorem commitOk_classArg (g : Groups) (s : State) :
    (commitOk g s).classArg = s.classArg := rfl
@[simp] theorem commitOk_results (g : Groups) (s : State) :
    (commitOk g s).results = .ofGroups g := rfl
@[simp] theorem commitOk_buf (g : Groups) (s : State) : (commitOk g s).buf = s.buf := rfl
@[simp] theorem commitOk_rst (g : Groups) (s : State) : (commitOk g s).rst = s.rst := rfl
@[simp] theorem commitOk_agenda (g : Groups) (s : State) : (commitOk g s).agenda = s.agenda := rfl
@[simp] theorem commitOk_rdata (g : Groups) (s : State) : (commitOk g s).rdata = s.rdata := rfl
@[simp] theorem commitOk_draws (g : Groups) (s : State) : (commitOk g s).draws = s.draws := rfl
@[simp] theorem commitOk_resets (g : Groups) (s : State) : (commitOk g s).resets = s.resets := rfl

/-! ### `commitErr` -/

@[simp] theorem commitErr_eng (c : ErrCode) (l : Layer) (s : State) :
    (commitErr c l s).eng = .idle := rfl
@[simp] theorem commitErr_lop (c : ErrCode) (l : Layer) (s : State) :
    (commitErr c l s).lop = s.lop := rfl
@[simp] theorem commitErr_loff (c : ErrCode) (l : Layer) (s : State) :
    (commitErr c l s).loff = s.loff := rfl
@[simp] theorem commitErr_llen (c : ErrCode) (l : Layer) (s : State) :
    (commitErr c l s).llen = s.llen := rfl
@[simp] theorem commitErr_larg (c : ErrCode) (l : Layer) (s : State) :
    (commitErr c l s).larg = s.larg := rfl
@[simp] theorem commitErr_done (c : ErrCode) (l : Layer) (s : State) :
    (commitErr c l s).done = true := rfl
@[simp] theorem commitErr_err (c : ErrCode) (l : Layer) (s : State) :
    (commitErr c l s).err = c.code := rfl
@[simp] theorem commitErr_errLayer (c : ErrCode) (l : Layer) (s : State) :
    (commitErr c l s).errLayer = l.code := rfl
@[simp] theorem commitErr_cmdIgnored (c : ErrCode) (l : Layer) (s : State) :
    (commitErr c l s).cmdIgnored = s.cmdIgnored := rfl
@[simp] theorem commitErr_writeIgnored (c : ErrCode) (l : Layer) (s : State) :
    (commitErr c l s).writeIgnored = s.writeIgnored := rfl
@[simp] theorem commitErr_accErr (c : ErrCode) (l : Layer) (s : State) :
    (commitErr c l s).accErr = s.accErr := rfl
@[simp] theorem commitErr_irqEn (c : ErrCode) (l : Layer) (s : State) :
    (commitErr c l s).irqEn = s.irqEn := rfl
@[simp] theorem commitErr_inOff (c : ErrCode) (l : Layer) (s : State) :
    (commitErr c l s).inOff = s.inOff := rfl
@[simp] theorem commitErr_inLen (c : ErrCode) (l : Layer) (s : State) :
    (commitErr c l s).inLen = s.inLen := rfl
@[simp] theorem commitErr_classArg (c : ErrCode) (l : Layer) (s : State) :
    (commitErr c l s).classArg = s.classArg := rfl
@[simp] theorem commitErr_results (c : ErrCode) (l : Layer) (s : State) :
    (commitErr c l s).results = .zero := rfl
@[simp] theorem commitErr_buf (c : ErrCode) (l : Layer) (s : State) :
    (commitErr c l s).buf = s.buf := rfl
@[simp] theorem commitErr_rst (c : ErrCode) (l : Layer) (s : State) :
    (commitErr c l s).rst = s.rst := rfl
@[simp] theorem commitErr_agenda (c : ErrCode) (l : Layer) (s : State) :
    (commitErr c l s).agenda = s.agenda := rfl
@[simp] theorem commitErr_rdata (c : ErrCode) (l : Layer) (s : State) :
    (commitErr c l s).rdata = s.rdata := rfl
@[simp] theorem commitErr_draws (c : ErrCode) (l : Layer) (s : State) :
    (commitErr c l s).draws = s.draws := rfl
@[simp] theorem commitErr_resets (c : ErrCode) (l : Layer) (s : State) :
    (commitErr c l s).resets = s.resets := rfl

/-! ### `writeByte` -/

@[simp] theorem writeByte_eng (a : Nat) (b : Byte) (s : State) :
    (writeByte a b s).eng = s.eng := rfl
@[simp] theorem writeByte_lop (a : Nat) (b : Byte) (s : State) :
    (writeByte a b s).lop = s.lop := rfl
@[simp] theorem writeByte_loff (a : Nat) (b : Byte) (s : State) :
    (writeByte a b s).loff = s.loff := rfl
@[simp] theorem writeByte_llen (a : Nat) (b : Byte) (s : State) :
    (writeByte a b s).llen = s.llen := rfl
@[simp] theorem writeByte_larg (a : Nat) (b : Byte) (s : State) :
    (writeByte a b s).larg = s.larg := rfl
@[simp] theorem writeByte_done (a : Nat) (b : Byte) (s : State) :
    (writeByte a b s).done = s.done := rfl
@[simp] theorem writeByte_err (a : Nat) (b : Byte) (s : State) :
    (writeByte a b s).err = s.err := rfl
@[simp] theorem writeByte_errLayer (a : Nat) (b : Byte) (s : State) :
    (writeByte a b s).errLayer = s.errLayer := rfl
@[simp] theorem writeByte_cmdIgnored (a : Nat) (b : Byte) (s : State) :
    (writeByte a b s).cmdIgnored = s.cmdIgnored := rfl
@[simp] theorem writeByte_writeIgnored (a : Nat) (b : Byte) (s : State) :
    (writeByte a b s).writeIgnored = s.writeIgnored := rfl
@[simp] theorem writeByte_accErr (a : Nat) (b : Byte) (s : State) :
    (writeByte a b s).accErr = s.accErr := rfl
@[simp] theorem writeByte_irqEn (a : Nat) (b : Byte) (s : State) :
    (writeByte a b s).irqEn = s.irqEn := rfl
@[simp] theorem writeByte_inOff (a : Nat) (b : Byte) (s : State) :
    (writeByte a b s).inOff = s.inOff := rfl
@[simp] theorem writeByte_inLen (a : Nat) (b : Byte) (s : State) :
    (writeByte a b s).inLen = s.inLen := rfl
@[simp] theorem writeByte_classArg (a : Nat) (b : Byte) (s : State) :
    (writeByte a b s).classArg = s.classArg := rfl
@[simp] theorem writeByte_results (a : Nat) (b : Byte) (s : State) :
    (writeByte a b s).results = s.results := rfl
@[simp] theorem writeByte_buf (a : Nat) (b : Byte) (s : State) :
    (writeByte a b s).buf = s.buf.write a b := rfl
@[simp] theorem writeByte_rst (a : Nat) (b : Byte) (s : State) :
    (writeByte a b s).rst = s.rst := rfl
@[simp] theorem writeByte_agenda (a : Nat) (b : Byte) (s : State) :
    (writeByte a b s).agenda = s.agenda := rfl
@[simp] theorem writeByte_rdata (a : Nat) (b : Byte) (s : State) :
    (writeByte a b s).rdata = s.rdata := rfl
@[simp] theorem writeByte_draws (a : Nat) (b : Byte) (s : State) :
    (writeByte a b s).draws = s.draws := rfl
@[simp] theorem writeByte_resets (a : Nat) (b : Byte) (s : State) :
    (writeByte a b s).resets = s.resets := rfl

/-! ### `writeBufWord` -/

@[simp] theorem writeBufWord_eng (a : Nat) (v : Word) (s : State) :
    (writeBufWord a v s).eng = s.eng := by
  simp [writeBufWord]
@[simp] theorem writeBufWord_lop (a : Nat) (v : Word) (s : State) :
    (writeBufWord a v s).lop = s.lop := by
  simp [writeBufWord]
@[simp] theorem writeBufWord_loff (a : Nat) (v : Word) (s : State) :
    (writeBufWord a v s).loff = s.loff := by
  simp [writeBufWord]
@[simp] theorem writeBufWord_llen (a : Nat) (v : Word) (s : State) :
    (writeBufWord a v s).llen = s.llen := by
  simp [writeBufWord]
@[simp] theorem writeBufWord_larg (a : Nat) (v : Word) (s : State) :
    (writeBufWord a v s).larg = s.larg := by
  simp [writeBufWord]
@[simp] theorem writeBufWord_done (a : Nat) (v : Word) (s : State) :
    (writeBufWord a v s).done = s.done := by
  simp [writeBufWord]
@[simp] theorem writeBufWord_err (a : Nat) (v : Word) (s : State) :
    (writeBufWord a v s).err = s.err := by
  simp [writeBufWord]
@[simp] theorem writeBufWord_errLayer (a : Nat) (v : Word) (s : State) :
    (writeBufWord a v s).errLayer = s.errLayer := by
  simp [writeBufWord]
@[simp] theorem writeBufWord_cmdIgnored (a : Nat) (v : Word) (s : State) :
    (writeBufWord a v s).cmdIgnored = s.cmdIgnored := by
  simp [writeBufWord]
@[simp] theorem writeBufWord_writeIgnored (a : Nat) (v : Word) (s : State) :
    (writeBufWord a v s).writeIgnored = s.writeIgnored := by
  simp [writeBufWord]
@[simp] theorem writeBufWord_accErr (a : Nat) (v : Word) (s : State) :
    (writeBufWord a v s).accErr = s.accErr := by
  simp [writeBufWord]
@[simp] theorem writeBufWord_irqEn (a : Nat) (v : Word) (s : State) :
    (writeBufWord a v s).irqEn = s.irqEn := by
  simp [writeBufWord]
@[simp] theorem writeBufWord_inOff (a : Nat) (v : Word) (s : State) :
    (writeBufWord a v s).inOff = s.inOff := by
  simp [writeBufWord]
@[simp] theorem writeBufWord_inLen (a : Nat) (v : Word) (s : State) :
    (writeBufWord a v s).inLen = s.inLen := by
  simp [writeBufWord]
@[simp] theorem writeBufWord_classArg (a : Nat) (v : Word) (s : State) :
    (writeBufWord a v s).classArg = s.classArg := by
  simp [writeBufWord]
@[simp] theorem writeBufWord_results (a : Nat) (v : Word) (s : State) :
    (writeBufWord a v s).results = s.results := by
  simp [writeBufWord]
@[simp] theorem writeBufWord_rst (a : Nat) (v : Word) (s : State) :
    (writeBufWord a v s).rst = s.rst := by
  simp [writeBufWord]
@[simp] theorem writeBufWord_agenda (a : Nat) (v : Word) (s : State) :
    (writeBufWord a v s).agenda = s.agenda := by
  simp [writeBufWord]
@[simp] theorem writeBufWord_rdata (a : Nat) (v : Word) (s : State) :
    (writeBufWord a v s).rdata = s.rdata := by
  simp [writeBufWord]
@[simp] theorem writeBufWord_draws (a : Nat) (v : Word) (s : State) :
    (writeBufWord a v s).draws = s.draws := by
  simp [writeBufWord]
@[simp] theorem writeBufWord_resets (a : Nat) (v : Word) (s : State) :
    (writeBufWord a v s).resets = s.resets := by
  simp [writeBufWord]

/-! ### `writeStatus` -/

@[simp] theorem writeStatus_eng (v : Word) (s : State) : (writeStatus v s).eng = s.eng := rfl
@[simp] theorem writeStatus_lop (v : Word) (s : State) : (writeStatus v s).lop = s.lop := rfl
@[simp] theorem writeStatus_loff (v : Word) (s : State) : (writeStatus v s).loff = s.loff := rfl
@[simp] theorem writeStatus_llen (v : Word) (s : State) : (writeStatus v s).llen = s.llen := rfl
@[simp] theorem writeStatus_larg (v : Word) (s : State) : (writeStatus v s).larg = s.larg := rfl
@[simp] theorem writeStatus_done (v : Word) (s : State) :
    (writeStatus v s).done = (s.done && !v.getLsbD 1) := rfl
@[simp] theorem writeStatus_err (v : Word) (s : State) : (writeStatus v s).err = s.err := rfl
@[simp] theorem writeStatus_errLayer (v : Word) (s : State) :
    (writeStatus v s).errLayer = s.errLayer := rfl
@[simp] theorem writeStatus_cmdIgnored (v : Word) (s : State) :
    (writeStatus v s).cmdIgnored = (s.cmdIgnored && !v.getLsbD 16) := rfl
@[simp] theorem writeStatus_writeIgnored (v : Word) (s : State) :
    (writeStatus v s).writeIgnored = (s.writeIgnored && !v.getLsbD 17) := rfl
@[simp] theorem writeStatus_accErr (v : Word) (s : State) :
    (writeStatus v s).accErr = (s.accErr && !v.getLsbD 18) := rfl
@[simp] theorem writeStatus_irqEn (v : Word) (s : State) : (writeStatus v s).irqEn = s.irqEn := rfl
@[simp] theorem writeStatus_inOff (v : Word) (s : State) : (writeStatus v s).inOff = s.inOff := rfl
@[simp] theorem writeStatus_inLen (v : Word) (s : State) : (writeStatus v s).inLen = s.inLen := rfl
@[simp] theorem writeStatus_classArg (v : Word) (s : State) :
    (writeStatus v s).classArg = s.classArg := rfl
@[simp] theorem writeStatus_results (v : Word) (s : State) :
    (writeStatus v s).results = s.results := rfl
@[simp] theorem writeStatus_buf (v : Word) (s : State) : (writeStatus v s).buf = s.buf := rfl
@[simp] theorem writeStatus_rst (v : Word) (s : State) : (writeStatus v s).rst = s.rst := rfl
@[simp] theorem writeStatus_agenda (v : Word) (s : State) :
    (writeStatus v s).agenda = s.agenda := rfl
@[simp] theorem writeStatus_rdata (v : Word) (s : State) : (writeStatus v s).rdata = s.rdata := rfl
@[simp] theorem writeStatus_draws (v : Word) (s : State) : (writeStatus v s).draws = s.draws := rfl
@[simp] theorem writeStatus_resets (v : Word) (s : State) :
    (writeStatus v s).resets = s.resets := rfl

/-! ### `accessError` -/

@[simp] theorem accessError_eng (s : State) : (accessError s).eng = s.eng := rfl
@[simp] theorem accessError_lop (s : State) : (accessError s).lop = s.lop := rfl
@[simp] theorem accessError_loff (s : State) : (accessError s).loff = s.loff := rfl
@[simp] theorem accessError_llen (s : State) : (accessError s).llen = s.llen := rfl
@[simp] theorem accessError_larg (s : State) : (accessError s).larg = s.larg := rfl
@[simp] theorem accessError_done (s : State) : (accessError s).done = s.done := rfl
@[simp] theorem accessError_err (s : State) : (accessError s).err = s.err := rfl
@[simp] theorem accessError_errLayer (s : State) : (accessError s).errLayer = s.errLayer := rfl
@[simp] theorem accessError_cmdIgnored (s : State) :
    (accessError s).cmdIgnored = s.cmdIgnored := rfl
@[simp] theorem accessError_writeIgnored (s : State) :
    (accessError s).writeIgnored = s.writeIgnored := rfl
@[simp] theorem accessError_accErr (s : State) : (accessError s).accErr = true := rfl
@[simp] theorem accessError_irqEn (s : State) : (accessError s).irqEn = s.irqEn := rfl
@[simp] theorem accessError_inOff (s : State) : (accessError s).inOff = s.inOff := rfl
@[simp] theorem accessError_inLen (s : State) : (accessError s).inLen = s.inLen := rfl
@[simp] theorem accessError_classArg (s : State) : (accessError s).classArg = s.classArg := rfl
@[simp] theorem accessError_results (s : State) : (accessError s).results = s.results := rfl
@[simp] theorem accessError_buf (s : State) : (accessError s).buf = s.buf := rfl
@[simp] theorem accessError_rst (s : State) : (accessError s).rst = s.rst := rfl
@[simp] theorem accessError_agenda (s : State) : (accessError s).agenda = s.agenda := rfl
@[simp] theorem accessError_rdata (s : State) : (accessError s).rdata = s.rdata := rfl
@[simp] theorem accessError_draws (s : State) : (accessError s).draws = s.draws := rfl
@[simp] theorem accessError_resets (s : State) : (accessError s).resets = s.resets := rfl

/-! ### `returnData` -/

@[simp] theorem returnData_eng (v : Word) (s : State) : (returnData v s).eng = s.eng := rfl
@[simp] theorem returnData_lop (v : Word) (s : State) : (returnData v s).lop = s.lop := rfl
@[simp] theorem returnData_loff (v : Word) (s : State) : (returnData v s).loff = s.loff := rfl
@[simp] theorem returnData_llen (v : Word) (s : State) : (returnData v s).llen = s.llen := rfl
@[simp] theorem returnData_larg (v : Word) (s : State) : (returnData v s).larg = s.larg := rfl
@[simp] theorem returnData_done (v : Word) (s : State) : (returnData v s).done = s.done := rfl
@[simp] theorem returnData_err (v : Word) (s : State) : (returnData v s).err = s.err := rfl
@[simp] theorem returnData_errLayer (v : Word) (s : State) :
    (returnData v s).errLayer = s.errLayer := rfl
@[simp] theorem returnData_cmdIgnored (v : Word) (s : State) :
    (returnData v s).cmdIgnored = s.cmdIgnored := rfl
@[simp] theorem returnData_writeIgnored (v : Word) (s : State) :
    (returnData v s).writeIgnored = s.writeIgnored := rfl
@[simp] theorem returnData_accErr (v : Word) (s : State) : (returnData v s).accErr = s.accErr := rfl
@[simp] theorem returnData_irqEn (v : Word) (s : State) : (returnData v s).irqEn = s.irqEn := rfl
@[simp] theorem returnData_inOff (v : Word) (s : State) : (returnData v s).inOff = s.inOff := rfl
@[simp] theorem returnData_inLen (v : Word) (s : State) : (returnData v s).inLen = s.inLen := rfl
@[simp] theorem returnData_classArg (v : Word) (s : State) :
    (returnData v s).classArg = s.classArg := rfl
@[simp] theorem returnData_results (v : Word) (s : State) :
    (returnData v s).results = s.results := rfl
@[simp] theorem returnData_buf (v : Word) (s : State) : (returnData v s).buf = s.buf := rfl
@[simp] theorem returnData_rst (v : Word) (s : State) : (returnData v s).rst = s.rst := rfl
@[simp] theorem returnData_agenda (v : Word) (s : State) : (returnData v s).agenda = s.agenda := rfl
@[simp] theorem returnData_rdata (v : Word) (s : State) : (returnData v s).rdata = v := rfl
@[simp] theorem returnData_draws (v : Word) (s : State) : (returnData v s).draws = s.draws := rfl
@[simp] theorem returnData_resets (v : Word) (s : State) : (returnData v s).resets = s.resets := rfl

/-! ### `dropWrite` -/

@[simp] theorem dropWrite_eng (s : State) : (dropWrite s).eng = s.eng := rfl
@[simp] theorem dropWrite_lop (s : State) : (dropWrite s).lop = s.lop := rfl
@[simp] theorem dropWrite_loff (s : State) : (dropWrite s).loff = s.loff := rfl
@[simp] theorem dropWrite_llen (s : State) : (dropWrite s).llen = s.llen := rfl
@[simp] theorem dropWrite_larg (s : State) : (dropWrite s).larg = s.larg := rfl
@[simp] theorem dropWrite_done (s : State) : (dropWrite s).done = s.done := rfl
@[simp] theorem dropWrite_err (s : State) : (dropWrite s).err = s.err := rfl
@[simp] theorem dropWrite_errLayer (s : State) : (dropWrite s).errLayer = s.errLayer := rfl
@[simp] theorem dropWrite_cmdIgnored (s : State) : (dropWrite s).cmdIgnored = s.cmdIgnored := rfl
@[simp] theorem dropWrite_writeIgnored (s : State) : (dropWrite s).writeIgnored = true := rfl
@[simp] theorem dropWrite_accErr (s : State) : (dropWrite s).accErr = s.accErr := rfl
@[simp] theorem dropWrite_irqEn (s : State) : (dropWrite s).irqEn = s.irqEn := rfl
@[simp] theorem dropWrite_inOff (s : State) : (dropWrite s).inOff = s.inOff := rfl
@[simp] theorem dropWrite_inLen (s : State) : (dropWrite s).inLen = s.inLen := rfl
@[simp] theorem dropWrite_classArg (s : State) : (dropWrite s).classArg = s.classArg := rfl
@[simp] theorem dropWrite_results (s : State) : (dropWrite s).results = s.results := rfl
@[simp] theorem dropWrite_buf (s : State) : (dropWrite s).buf = s.buf := rfl
@[simp] theorem dropWrite_rst (s : State) : (dropWrite s).rst = s.rst := rfl
@[simp] theorem dropWrite_agenda (s : State) : (dropWrite s).agenda = s.agenda := rfl
@[simp] theorem dropWrite_rdata (s : State) : (dropWrite s).rdata = s.rdata := rfl
@[simp] theorem dropWrite_draws (s : State) : (dropWrite s).draws = s.draws := rfl
@[simp] theorem dropWrite_resets (s : State) : (dropWrite s).resets = s.resets := rfl

/-! ### `enterReset` -/

@[simp] theorem enterReset_eng (s : State) : (enterReset s).eng = State.reset.eng := rfl
@[simp] theorem enterReset_lop (s : State) : (enterReset s).lop = State.reset.lop := rfl
@[simp] theorem enterReset_loff (s : State) : (enterReset s).loff = State.reset.loff := rfl
@[simp] theorem enterReset_llen (s : State) : (enterReset s).llen = State.reset.llen := rfl
@[simp] theorem enterReset_larg (s : State) : (enterReset s).larg = State.reset.larg := rfl
@[simp] theorem enterReset_done (s : State) : (enterReset s).done = State.reset.done := rfl
@[simp] theorem enterReset_err (s : State) : (enterReset s).err = State.reset.err := rfl
@[simp] theorem enterReset_errLayer (s : State) :
    (enterReset s).errLayer = State.reset.errLayer := rfl
@[simp] theorem enterReset_cmdIgnored (s : State) :
    (enterReset s).cmdIgnored = State.reset.cmdIgnored := rfl
@[simp] theorem enterReset_writeIgnored (s : State) :
    (enterReset s).writeIgnored = State.reset.writeIgnored := rfl
@[simp] theorem enterReset_accErr (s : State) : (enterReset s).accErr = State.reset.accErr := rfl
@[simp] theorem enterReset_irqEn (s : State) : (enterReset s).irqEn = State.reset.irqEn := rfl
@[simp] theorem enterReset_inOff (s : State) : (enterReset s).inOff = State.reset.inOff := rfl
@[simp] theorem enterReset_inLen (s : State) : (enterReset s).inLen = State.reset.inLen := rfl
@[simp] theorem enterReset_classArg (s : State) :
    (enterReset s).classArg = State.reset.classArg := rfl
@[simp] theorem enterReset_results (s : State) : (enterReset s).results = State.reset.results := rfl
@[simp] theorem enterReset_buf (s : State) : (enterReset s).buf = State.reset.buf := rfl
@[simp] theorem enterReset_rst (s : State) : (enterReset s).rst = true := rfl
@[simp] theorem enterReset_agenda (s : State) : (enterReset s).agenda = s.agenda := rfl
@[simp] theorem enterReset_rdata (s : State) : (enterReset s).rdata = s.rdata := rfl
@[simp] theorem enterReset_draws (s : State) : (enterReset s).draws = s.draws := rfl
@[simp] theorem enterReset_resets (s : State) : (enterReset s).resets = s.resets + 1 := rfl

/-! ### `presentCommand` -/

@[simp] theorem presentCommand_eng (w : Word) (s : State) : (presentCommand w s).eng = .busy := rfl
@[simp] theorem presentCommand_lop (w : Word) (s : State) : (presentCommand w s).lop = w := rfl
@[simp] theorem presentCommand_loff (w : Word) (s : State) :
    (presentCommand w s).loff = s.inOff := rfl
@[simp] theorem presentCommand_llen (w : Word) (s : State) :
    (presentCommand w s).llen = s.inLen := rfl
@[simp] theorem presentCommand_larg (w : Word) (s : State) :
    (presentCommand w s).larg = s.classArg := rfl
@[simp] theorem presentCommand_done (w : Word) (s : State) :
    (presentCommand w s).done = false := rfl
@[simp] theorem presentCommand_err (w : Word) (s : State) : (presentCommand w s).err = 0 := rfl
@[simp] theorem presentCommand_errLayer (w : Word) (s : State) :
    (presentCommand w s).errLayer = 0 := rfl
@[simp] theorem presentCommand_cmdIgnored (w : Word) (s : State) :
    (presentCommand w s).cmdIgnored = s.cmdIgnored := rfl
@[simp] theorem presentCommand_writeIgnored (w : Word) (s : State) :
    (presentCommand w s).writeIgnored = s.writeIgnored := rfl
@[simp] theorem presentCommand_accErr (w : Word) (s : State) :
    (presentCommand w s).accErr = s.accErr := rfl
@[simp] theorem presentCommand_irqEn (w : Word) (s : State) :
    (presentCommand w s).irqEn = s.irqEn := rfl
@[simp] theorem presentCommand_inOff (w : Word) (s : State) :
    (presentCommand w s).inOff = s.inOff := rfl
@[simp] theorem presentCommand_inLen (w : Word) (s : State) :
    (presentCommand w s).inLen = s.inLen := rfl
@[simp] theorem presentCommand_classArg (w : Word) (s : State) :
    (presentCommand w s).classArg = s.classArg := rfl
@[simp] theorem presentCommand_results (w : Word) (s : State) :
    (presentCommand w s).results = s.results := rfl
@[simp] theorem presentCommand_buf (w : Word) (s : State) : (presentCommand w s).buf = s.buf := rfl
@[simp] theorem presentCommand_rst (w : Word) (s : State) : (presentCommand w s).rst = false := rfl
@[simp] theorem presentCommand_agenda (w : Word) (s : State) :
    (presentCommand w s).agenda = yieldHead s.agenda := rfl
@[simp] theorem presentCommand_rdata (w : Word) (s : State) :
    (presentCommand w s).rdata = s.rdata := rfl
@[simp] theorem presentCommand_draws (w : Word) (s : State) :
    (presentCommand w s).draws = s.draws := rfl
@[simp] theorem presentCommand_resets (w : Word) (s : State) :
    (presentCommand w s).resets = s.resets := rfl

/-! ### `commit`: what it leaves alone, whatever the outcome -/

@[simp] theorem commit_lop (r : Parsed Groups) (s : State) : (commit r s).lop = s.lop := by
  cases r <;> rfl
@[simp] theorem commit_loff (r : Parsed Groups) (s : State) : (commit r s).loff = s.loff := by
  cases r <;> rfl
@[simp] theorem commit_llen (r : Parsed Groups) (s : State) : (commit r s).llen = s.llen := by
  cases r <;> rfl
@[simp] theorem commit_larg (r : Parsed Groups) (s : State) : (commit r s).larg = s.larg := by
  cases r <;> rfl
@[simp] theorem commit_cmdIgnored (r : Parsed Groups) (s : State) : (commit r s).cmdIgnored = s.cmdIgnored := by
  cases r <;> rfl
@[simp] theorem commit_writeIgnored (r : Parsed Groups) (s : State) : (commit r s).writeIgnored = s.writeIgnored := by
  cases r <;> rfl
@[simp] theorem commit_accErr (r : Parsed Groups) (s : State) : (commit r s).accErr = s.accErr := by
  cases r <;> rfl
@[simp] theorem commit_irqEn (r : Parsed Groups) (s : State) : (commit r s).irqEn = s.irqEn := by
  cases r <;> rfl
@[simp] theorem commit_inOff (r : Parsed Groups) (s : State) : (commit r s).inOff = s.inOff := by
  cases r <;> rfl
@[simp] theorem commit_inLen (r : Parsed Groups) (s : State) : (commit r s).inLen = s.inLen := by
  cases r <;> rfl
@[simp] theorem commit_classArg (r : Parsed Groups) (s : State) : (commit r s).classArg = s.classArg := by
  cases r <;> rfl
@[simp] theorem commit_buf (r : Parsed Groups) (s : State) : (commit r s).buf = s.buf := by
  cases r <;> rfl
@[simp] theorem commit_rst (r : Parsed Groups) (s : State) : (commit r s).rst = s.rst := by
  cases r <;> rfl
@[simp] theorem commit_agenda (r : Parsed Groups) (s : State) : (commit r s).agenda = s.agenda := by
  cases r <;> rfl
@[simp] theorem commit_rdata (r : Parsed Groups) (s : State) : (commit r s).rdata = s.rdata := by
  cases r <;> rfl
@[simp] theorem commit_draws (r : Parsed Groups) (s : State) : (commit r s).draws = s.draws := by
  cases r <;> rfl
@[simp] theorem commit_resets (r : Parsed Groups) (s : State) : (commit r s).resets = s.resets := by
  cases r <;> rfl
@[simp] theorem commit_eng (r : Parsed Groups) (s : State) : (commit r s).eng = .idle := by
  cases r <;> rfl
@[simp] theorem commit_done (r : Parsed Groups) (s : State) : (commit r s).done = true := by
  cases r <;> rfl
@[simp] theorem commit_ok (g : Groups) (s : State) : commit (.ok g) s = commitOk g s := rfl
@[simp] theorem commit_err (c : ErrCode) (l : Layer) (s : State) :
    commit (.err c l) s = commitErr c l s := rfl

/-! ### `STATUS.BUSY` -/

theorem busy_iff (s : State) : s.busy = true ↔ s.eng = .busy := by simp [State.busy]
theorem not_busy_iff (s : State) : s.busy = false ↔ s.eng = .idle := by
  cases h : s.eng <;> simp [State.busy, h]
@[simp] theorem accept_busy (w : Word) (s : State) : (accept w s).busy = true := rfl
@[simp] theorem commitOk_busy (g : Groups) (s : State) : (commitOk g s).busy = false := rfl
@[simp] theorem commitErr_busy (c : ErrCode) (l : Layer) (s : State) : (commitErr c l s).busy = false := rfl
@[simp] theorem writeByte_busy (a : Nat) (b : Byte) (s : State) : (writeByte a b s).busy = s.busy := rfl
@[simp] theorem writeBufWord_busy (a : Nat) (v : Word) (s : State) : (writeBufWord a v s).busy = s.busy := by
  simp [State.busy]
@[simp] theorem writeStatus_busy (v : Word) (s : State) : (writeStatus v s).busy = s.busy := rfl
@[simp] theorem accessError_busy (s : State) : (accessError s).busy = s.busy := rfl
@[simp] theorem returnData_busy (v : Word) (s : State) : (returnData v s).busy = s.busy := rfl
@[simp] theorem dropWrite_busy (s : State) : (dropWrite s).busy = s.busy := rfl
@[simp] theorem enterReset_busy (s : State) : (enterReset s).busy = false := rfl
@[simp] theorem presentCommand_busy (w : Word) (s : State) : (presentCommand w s).busy = true := rfl
@[simp] theorem commit_busy (r : Parsed Groups) (s : State) : (commit r s).busy = false := by
  cases r <;> rfl

end Sys2Proof.Machine
end

