-- ==== Sys2Proof/Laws/Memory.lean ====
section
/-! SUPPORT. Reading after writing in the frame buffer, and its canonical form (10_state R46). -/

namespace Sys2Proof.Machine

@[simp] theorem Memory.read_nil (a : Nat) : Memory.read [] a = none := rfl

theorem Memory.read_write_same (m : Memory) (a : Nat) (b : Byte) :
    (m.write a b).read a = some b := by
  induction m with
  | nil => simp [Memory.write, Memory.read]
  | cons c m ih =>
    simp only [Memory.write]
    split
    · simp [Memory.read]
    · split
      · simp [Memory.read]
      · simp_all [Memory.read]

theorem Memory.read_write_other (m : Memory) (a x : Nat) (b : Byte) (h : x ≠ a) :
    (m.write a b).read x = m.read x := by
  induction m with
  | nil => simp [Memory.write, Memory.read, h, Memory.unlisted]
  | cons c m ih =>
    simp only [Memory.write]
    split
    · simp [Memory.read, h]
    · split
      · simp_all [Memory.read]
      · simp_all [Memory.read]

theorem Memory.mem_write {m : Memory} {a : Nat} {b : Byte} {c : Host.Cell}
    (h : c ∈ m.write a b) : c = (a, b) ∨ c ∈ m := by
  induction m with
  | nil => simpa [Memory.write] using h
  | cons d m ih =>
    simp only [Memory.write] at h
    split at h
    · simpa using h
    · split at h
      · rcases List.mem_cons.1 h with h | h
        · exact .inl h
        · exact .inr (List.mem_cons_of_mem _ h)
      · rcases List.mem_cons.1 h with h | h
        · exact .inr (by simp [h])
        · rcases ih h with h | h
          · exact .inl h
          · exact .inr (List.mem_cons_of_mem _ h)

theorem Memory.write_sorted (m : Memory) (a : Nat) (b : Byte)
    (h : m.Pairwise (fun x y => x.1 < y.1)) :
    (m.write a b).Pairwise (fun x y => x.1 < y.1) := by
  induction m with
  | nil => simp [Memory.write]
  | cons d m ih =>
    obtain ⟨k, c⟩ := d
    have hd := List.pairwise_cons.1 h
    simp only [Memory.write]
    split
    · rename_i hlt
      refine List.pairwise_cons.2 ⟨fun y hy => ?_, h⟩
      rcases List.mem_cons.1 hy with rfl | hy
      · exact hlt
      · exact Nat.lt_trans hlt (hd.1 y hy)
    · split
      · rename_i heq
        exact List.pairwise_cons.2 ⟨fun y hy => heq ▸ hd.1 y hy, hd.2⟩
      · refine List.pairwise_cons.2 ⟨fun y hy => ?_, ih hd.2⟩
        rcases Memory.mem_write hy with rfl | hy
        · change k < a; omega
        · exact hd.1 y hy

/-- A write inside the buffer keeps the canonical form. -/
theorem Memory.write_wf {m : Memory} (a : Nat) (b : Byte) (ha : a < Config.bufSize) (h : m.wf) :
    (m.write a b).wf := by
  refine ⟨Memory.write_sorted m a b h.1, by simp [Memory.unlisted], fun c hc => ?_⟩
  rcases Memory.mem_write hc with rfl | hc
  · exact ha
  · exact h.2.2 c hc

theorem Memory.nil_wf : Memory.wf [] := by simp [Memory.wf]

theorem byteAt_writeByte (a x : Nat) (b : Byte) (s : State) :
    byteAt (writeByte a b s) x = if x = a then b else byteAt s x := by
  simp only [byteAt, writeByte_buf, writeByte_resets]
  split
  · subst x; simp [Memory.read_write_same]
  · rename_i h; rw [Memory.read_write_other _ _ _ _ h]

/-- The four bytes of a word write, and every other byte as before (20_memory R55). -/
theorem byteAt_writeBufWord (a x : Nat) (v : Word) (s : State) :
    byteAt (writeBufWord a v s) x =
      if x = a + 3 then v.extractLsb' 24 8
      else if x = a + 2 then v.extractLsb' 16 8
      else if x = a + 1 then v.extractLsb' 8 8
      else if x = a then v.extractLsb' 0 8
      else byteAt s x := by
  simp only [writeBufWord, byteAt_writeByte]

theorem writeBufWord_wf {s : State} (a : Nat) (v : Word) (ha : a + 3 < Config.bufSize)
    (h : s.buf.wf) : (writeBufWord a v s).buf.wf := by
  simp only [writeBufWord, writeByte_buf]
  exact Memory.write_wf _ _ ha (Memory.write_wf _ _ (by omega)
    (Memory.write_wf _ _ (by omega) (Memory.write_wf _ _ (by omega) h)))

/-- The bytes of the buffer depend on what is listed and on the draw in force. -/
theorem byteAt_congr {s t : State} (hb : t.buf = s.buf) (hr : t.resets = s.resets) (a : Nat) :
    byteAt t a = byteAt s a := by simp [byteAt, hb, hr]

@[simp] theorem byteAt_commit (r : Parsed Groups) (s : State) (a : Nat) :
    byteAt (commit r s) a = byteAt s a := byteAt_congr (by simp) (by simp) a

@[simp] theorem byteAt_commit_fun (r : Parsed Groups) (s : State) :
    byteAt (commit r s) = byteAt s := funext (byteAt_commit r s)

end Sys2Proof.Machine
end

