-- ==== Sys2Proof/Laws/Bus.lean ====
section
/-! SUPPORT. What a host access can touch and what it can do (20_memory R51 to R57). -/

namespace Sys2Proof.Machine

theorem busAddr_toNat {x : Nat} (h : x < 65536) : (busAddr x).toNat = x := by
  simp only [busAddr, BitVec.toNat_ofNat]; omega

theorem busAddr_buf {a : Nat} (h : a < Config.bufSize) : (busAddr (0x1000 + a)).toNat = 0x1000 + a :=
  busAddr_toNat (by have := bufSize_le; omega)

/-- A register starts only at its own address. -/
theorem ofAddr_some {h : Nat} {r : Reg} (e : Reg.ofAddr h = some r) : r.addr = h := by
  simpa using List.find?_some e

/-- Each register is found at its address. -/
theorem ofAddr_addr (r : Reg) : Reg.ofAddr r.addr = some r := by cases r <;> rfl

theorem addr_lt (r : Reg) : r.addr ≤ 0x124 := by cases r <;> decide

theorem addr_aligned (r : Reg) : r.addr % 4 = 0 := by cases r <;> rfl

theorem addr_row (r : Reg) : RegisterRow r.addr := by
  unfold RegisterRow; cases r <;> decide

/-- Every aligned address in a register row is a register's (20_memory R51). -/
theorem ofAddr_row {h : Nat} (ha : h % 4 = 0) (hr : RegisterRow h) : ∃ r, Reg.ofAddr h = some r := by
  have key : ∀ k, k < 74 → (k ≤ 8 ∨ 16 ≤ k ∧ k ≤ 23 ∨ 32 ≤ k ∧ k ≤ 42 ∨ 48 ≤ k ∧ k ≤ 55 ∨
      64 ≤ k ∧ k ≤ 67 ∨ 72 ≤ k ∧ k ≤ 73) → (Reg.ofAddr (4 * k)).isSome = true := by decide
  obtain ⟨k, rfl⟩ : ∃ k, h = 4 * k := ⟨h / 4, by omega⟩
  unfold RegisterRow at hr
  exact Option.isSome_iff_exists.1 (key k (by omega) (by omega))

/-- Everything an access can touch, and when. -/
theorem target_cases (addr : HostAddr) (w : Width) :
    (∃ r, target addr w = .reg r ∧ w = .w32 ∧ r.addr = addr.toNat) ∨
    (∃ a, target addr w = .bufByte a ∧ w = .w8 ∧ addr.toNat = 0x1000 + a ∧ a < Config.bufSize) ∨
    (∃ a, target addr w = .bufWord a ∧ w = .w32 ∧ addr.toNat = 0x1000 + a ∧ a % 4 = 0 ∧
      a + 3 < Config.bufSize) ∨
    (target addr w = .illegal ∧ ¬LegalAccess addr w) := by
  have hm := bufSize_mod
  cases w with
  | w16 => exact .inr (.inr (.inr ⟨rfl, by simp [LegalAccess]⟩))
  | w8 =>
    by_cases h : bufBase ≤ addr.toNat ∧ exceedsBuffer (addr.toNat - bufBase + 1) = false
    · have h2 := (exceedsBuffer_false _).1 h.2
      have h1 := h.1
      simp only [bufBase] at h1 h2
      exact .inr (.inl ⟨addr.toNat - bufBase, by simp [target, h], rfl, by simp only [bufBase]; omega,
        by simp only [bufBase]; omega⟩)
    · refine .inr (.inr (.inr ⟨by simp only [target]; rw [if_neg h], ?_⟩))
      rintro (⟨h', -⟩ | ⟨-, h1, h2⟩)
      · cases h'
      · exact h ⟨h1, (exceedsBuffer_false _).2 (by simp only [bufBase]; omega)⟩
  | w32 =>
    by_cases h4 : addr.toNat % 4 = 0
    · by_cases hb : bufBase ≤ addr.toNat
      · by_cases he : exceedsBuffer (addr.toNat - bufBase + 4) = true
        · refine .inr (.inr (.inr ⟨by simp [target, h4, hb, he], ?_⟩))
          have he := (exceedsBuffer_iff _).1 he
          simp only [bufBase] at hb he
          rintro (⟨-, -, hr | ⟨h1, h2⟩⟩ | ⟨h', -⟩)
          · simp only [RegisterRow] at hr; omega
          · omega
          · cases h'
        · have he' : exceedsBuffer (addr.toNat - bufBase + 4) = false := by simpa using he
          have h2 := (exceedsBuffer_false _).1 he'
          have hb' := hb
          simp only [bufBase] at hb' h2
          exact .inr (.inr (.inl ⟨addr.toNat - bufBase, by simp [target, h4, hb, he'], rfl,
            by simp only [bufBase]; omega, by simp only [bufBase]; omega,
            by simp only [bufBase]; omega⟩))
      · cases hr : Reg.ofAddr addr.toNat with
        | some r =>
          exact .inl ⟨r, by simp [target, h4, hb, hr], rfl, ofAddr_some hr⟩
        | none =>
          refine .inr (.inr (.inr ⟨by simp [target, h4, hb, hr], ?_⟩))
          simp only [bufBase] at hb
          rintro (⟨-, -, hr' | ⟨h1, -⟩⟩ | ⟨h', -⟩)
          · obtain ⟨r, hr'⟩ := ofAddr_row h4 hr'
            rw [hr] at hr'; cases hr'
          · omega
          · cases h'
    · refine .inr (.inr (.inr ⟨by simp [target, h4], ?_⟩))
      rintro (⟨-, h', -⟩ | ⟨h', -⟩)
      · exact h4 h'
      · cases h'

/-- A register's address at width 32 touches that register. -/
theorem target_reg {addr : HostAddr} {r : Reg} (h : addr.toNat = r.addr) :
    target addr .w32 = .reg r := by
  have h1 := addr_lt r
  have h2 := addr_aligned r
  have h3 : ¬bufBase ≤ r.addr := by simp only [bufBase]; omega
  simp [target, h, h2, h3, ofAddr_addr]

theorem target_regAddr (r : Reg) : target (busAddr r.addr) .w32 = .reg r :=
  target_reg (busAddr_toNat (by have := addr_lt r; omega))

theorem target_bufByte {addr : HostAddr} {a : Nat} (h : addr.toNat = 0x1000 + a)
    (ha : a < Config.bufSize) : target addr .w8 = .bufByte a := by
  have he : exceedsBuffer (a + 1) = false := (exceedsBuffer_false _).2 (by omega)
  simp [target, h, bufBase, he]

theorem target_bufWord {addr : HostAddr} {a : Nat} (h : addr.toNat = 0x1000 + a) (h4 : a % 4 = 0)
    (ha : a + 3 < Config.bufSize) : target addr .w32 = .bufWord a := by
  have he : exceedsBuffer (a + 4) = false := (exceedsBuffer_false _).2 (by omega)
  have h4' : (0x1000 + a) % 4 = 0 := by omega
  simp only [target, h, h4', bufBase]
  simp [he]

/-- A legal access touches something. -/
theorem target_legal {addr : HostAddr} {w : Width} (h : LegalAccess addr w) :
    target addr w ≠ .illegal := by
  have hm := bufSize_mod
  rcases h with ⟨rfl, h4, hr | ⟨h1, h2⟩⟩ | ⟨rfl, h1, h2⟩
  · obtain ⟨r, hr⟩ := ofAddr_row h4 hr
    rw [target_reg (ofAddr_some hr).symm]; simp
  · rw [target_bufWord (a := addr.toNat - 0x1000) (by omega) (by omega) (by omega)]; simp
  · rw [target_bufByte (a := addr.toNat - 0x1000) (by omega) (by omega)]; simp

/-- An access that is not legal touches nothing. -/
theorem target_illegal {addr : HostAddr} {w : Width} (h : ¬LegalAccess addr w) :
    target addr w = .illegal := by
  have hm := bufSize_mod
  rcases target_cases addr w with ⟨r, _, rfl, h2⟩ | ⟨a, _, rfl, h2, h3⟩ | ⟨a, _, rfl, h2, h3, h4⟩ | ⟨h1, -⟩
  · exact absurd (.inl ⟨rfl, h2 ▸ addr_aligned r, .inl (h2 ▸ addr_row r)⟩) h
  · exact absurd (.inr ⟨rfl, by simp only [BufferRow]; omega⟩) h
  · exact absurd (.inl ⟨rfl, by omega, .inr (by simp only [BufferRow]; omega)⟩) h
  · exact h1

/-! ### Everything an access can do -/

/-- A read changes at most what the host has been handed, a count of draws, and ACC_ERR. -/
theorem hostRead_eq (addr : HostAddr) (w : Width) (s : State) :
    ∃ d k, hostRead addr w s = { s with rdata := d, draws := k } ∨
      (s.rst = false ∧ hostRead addr w s = { s with rdata := 0, accErr := true }) := by
  unfold hostRead
  split
  · exact ⟨0, s.draws, .inl rfl⟩
  · rename_i hr
    cases target addr w with
    | reg r =>
      simp only [readRegister]
      split
      · exact ⟨_, _, .inl rfl⟩
      · exact ⟨_, s.draws, .inl rfl⟩
    | bufByte a => exact ⟨_, s.draws, .inl rfl⟩
    | bufWord a => exact ⟨_, s.draws, .inl rfl⟩
    | illegal => exact ⟨0, s.draws, .inr ⟨by simpa using hr, rfl⟩⟩

/-- The `STATUS` read of a host that polls (30_encoding R83). -/
theorem hostRead_status {s : State} (h : s.rst = false) :
    hostRead statusAddr .w32 s = returnData (statusWord s) s := by
  have ht : target statusAddr .w32 = .reg .status := rfl
  simp [hostRead, h, ht, readRegister, Reg.isResult, readReg]

/-- Bit 0 of `STATUS` is BUSY. -/
theorem statusWord_busy (s : State) : (statusWord s).getLsbD 0 = s.busy := by
  simp [statusWord, flag, place]

end Sys2Proof.Machine
end

