-- ==== Sys2Proof/Laws/Parse.lean ====
section
/-! SUPPORT. What each parse function can return: one lemma per function, with the bounds its checks
have established. Values that go to a register fit in it (00_scope R7). -/

namespace Sys2Proof.Machine

variable {B : Nat → Byte} {o n : Nat}

theorem toReg_toNat {x : Nat} (h : x ≤ Config.bufSize) : (toReg x).toNat = x := by
  have := bufSize_le
  simp only [toReg, BitVec.toNat_ofNat]
  exact Nat.mod_eq_of_lt (by omega)

theorem nibble_lt (x : BitVec 4) : x.toNat < 16 := x.isLt

/-- `ParseEth` fails with TRUNCATED_HEADER in layer ETH, or returns its record for a header of 14 or 18
bytes that fits the window (42_ethernet R88). -/
theorem parseEth_cases (B : Nat → Byte) (o n : Nat) :
    (parseEth B o n = .err .truncatedHeader .eth ∧
      (n < 14 ∨ (n < 18 ∧ memRead16 B (o + 12) = 0x8100#16))) ∨
    (18 ≤ n ∧ memRead16 B (o + 12) = 0x8100#16 ∧
      parseEth B o n = .ok (ethRecord B o n true (memRead16 B (o + 16)) 18)) ∨
    (14 ≤ n ∧ memRead16 B (o + 12) ≠ 0x8100#16 ∧
      parseEth B o n = .ok (ethRecord B o n false (memRead16 B (o + 12)) 14)) := by
  unfold parseEth
  by_cases h14 : n < 14
  · simp [h14]
  · by_cases ht : memRead16 B (o + 12) = 0x8100#16
    · by_cases h18 : n < 18
      · simp [h14, ht, h18]
      · simp [h14, ht, h18]; omega
    · simp [h14, ht]; omega

/-- What `ParseEth` has established when it returns a record. -/
theorem parseEth_ok {e : EthGroup} (h : parseEth B o n = .ok e) :
    ∃ vlan et hl, (hl = if vlan then 18 else 14) ∧ hl ≤ n ∧ e = ethRecord B o n vlan et hl := by
  rcases parseEth_cases B o n with ⟨h', -⟩ | ⟨hn, -, h'⟩ | ⟨hn, -, h'⟩ <;> rw [h'] at h
  · cases h
  · cases h; exact ⟨true, _, 18, rfl, hn, rfl⟩
  · cases h; exact ⟨false, _, 14, rfl, hn, rfl⟩

theorem parseEth_err {c : ErrCode} {l : Layer} (h : parseEth B o n = .err c l) :
    c = .truncatedHeader ∧ l = .eth := by
  rcases parseEth_cases B o n with ⟨h', -⟩ | ⟨-, -, h'⟩ | ⟨-, -, h'⟩ <;> rw [h'] at h <;> cases h
  exact ⟨rfl, rfl⟩

theorem ihlOf_le (B : Nat → Byte) (o : Nat) : ihlOf B o ≤ 60 := by
  have := nibble_lt ((memRead8 B (o + 0)).extractLsb' 0 4)
  simp only [ihlOf]; omega

theorem ihlOf_mod (B : Nat → Byte) (o : Nat) : ihlOf B o % 4 = 0 := by
  simp only [ihlOf]; omega

theorem parseIpv4_ok {i : IpGroup} (h : parseIpv4 B o n = .ok i) :
    20 ≤ ihlOf B o ∧ ihlOf B o ≤ totalLenOf B o ∧ totalLenOf B o ≤ n ∧ i = ipRecord B o := by
  unfold parseIpv4 at h
  repeat' split at h
  all_goals cases h
  refine ⟨?_, ?_, ?_, rfl⟩ <;> omega

theorem parseIpv4_err {c : ErrCode} {l : Layer} (h : parseIpv4 B o n = .err c l) :
    (c = .truncatedHeader ∨ c = .invalidHeaderLength) ∧ l = .ipv4 := by
  unfold parseIpv4 at h
  repeat' split at h
  all_goals cases h
  all_goals simp

theorem tcpHdrLenOf_le (B : Nat → Byte) (o : Nat) : tcpHdrLenOf B o ≤ 60 := by
  have := nibble_lt (dataOffOf B o)
  simp only [tcpHdrLenOf]; omega

theorem parseTcp_ok {t : TcpGroup} (h : parseTcp B o n = .ok t) :
    5 ≤ (dataOffOf B o).toNat ∧ tcpHdrLenOf B o ≤ n ∧ t = tcpRecord B o n := by
  unfold parseTcp at h
  repeat' split at h
  all_goals cases h
  refine ⟨?_, ?_, rfl⟩ <;> omega

theorem parseTcp_err {c : ErrCode} {l : Layer} (h : parseTcp B o n = .err c l) :
    (c = .truncatedHeader ∨ c = .invalidHeaderLength) ∧ l = .tcp := by
  unfold parseTcp at h
  repeat' split at h
  all_goals cases h
  all_goals simp

theorem parseUdp_ok {u : UdpGroup} (h : parseUdp B o n = .ok u) : 8 ≤ n ∧ u = udpRecord B o n := by
  unfold parseUdp at h
  split at h <;> cases h
  exact ⟨by omega, rfl⟩

theorem parseUdp_err {c : ErrCode} {l : Layer} (h : parseUdp B o n = .err c l) :
    c = .truncatedHeader ∧ l = .udp := by
  unfold parseUdp at h
  split at h <;> cases h
  exact ⟨rfl, rfl⟩

theorem parseIcmp_ok {m : IcmpGroup} (h : parseIcmp B o n = .ok m) : 4 ≤ n ∧ m = icmpRecord B o := by
  unfold parseIcmp at h
  split at h <;> cases h
  exact ⟨by omega, rfl⟩

theorem parseIcmp_err {c : ErrCode} {l : Layer} (h : parseIcmp B o n = .err c l) :
    c = .truncatedHeader ∧ l = .icmp := by
  unfold parseIcmp at h
  split at h <;> cases h
  exact ⟨rfl, rfl⟩

/-! ### The functions read only their window (20_memory R58) -/

section Locality

variable {B' : Nat → Byte} (hB : ∀ a, o ≤ a → a < o + n → B a = B' a)
include hB

theorem memRead8_congr {k : Nat} (hk : k < n) : memRead8 B (o + k) = memRead8 B' (o + k) :=
  hB _ (by omega) (by omega)

theorem memRead16_congr {k : Nat} (hk : k + 1 < n) : memRead16 B (o + k) = memRead16 B' (o + k) := by
  simp only [memRead16]
  rw [hB (o + k) (by omega) (by omega), hB (o + k + 1) (by omega) (by omega)]

theorem memRead32_congr {k : Nat} (hk : k + 3 < n) : memRead32 B (o + k) = memRead32 B' (o + k) := by
  simp only [memRead32]
  rw [hB (o + k) (by omega) (by omega), hB (o + k + 1) (by omega) (by omega),
    hB (o + k + 2) (by omega) (by omega), hB (o + k + 3) (by omega) (by omega)]

theorem ethRecord_congr (vlan : Bool) (et : BitVec 16) (hl : Nat) (hn : 14 ≤ n) :
    ethRecord B o n vlan et hl = ethRecord B' o n vlan et hl := by
  simp only [ethRecord, memRead16_congr hB (k := 0) (by omega), memRead16_congr hB (k := 6) (by omega),
    memRead32_congr hB (k := 2) (by omega), memRead32_congr hB (k := 8) (by omega)]

theorem parseEth_congr : parseEth B o n = parseEth B' o n := by
  unfold parseEth
  by_cases h14 : n < 14
  · simp [h14]
  · rw [memRead16_congr hB (k := 12) (by omega)]
    by_cases h18 : n < 18
    · simp [h14, h18, ethRecord_congr hB _ _ _ (Nat.le_of_not_lt h14)]
    · rw [memRead16_congr hB (k := 16) (by omega)]
      simp [h14, h18, ethRecord_congr hB _ _ _ (Nat.le_of_not_lt h14)]

theorem ihlOf_congr (hn : 20 ≤ n) : ihlOf B o = ihlOf B' o := by
  simp only [ihlOf, memRead8_congr hB (k := 0) (by omega)]

theorem totalLenOf_congr (hn : 20 ≤ n) : totalLenOf B o = totalLenOf B' o := by
  simp only [totalLenOf, memRead16_congr hB (k := 2) (by omega)]

theorem ipRecord_congr (hn : 20 ≤ n) : ipRecord B o = ipRecord B' o := by
  simp only [ipRecord, ihlOf_congr hB hn, totalLenOf_congr hB hn,
    memRead8_congr hB (k := 0) (by omega), memRead8_congr hB (k := 1) (by omega),
    memRead16_congr hB (k := 2) (by omega), memRead16_congr hB (k := 4) (by omega),
    memRead16_congr hB (k := 6) (by omega), memRead8_congr hB (k := 8) (by omega),
    memRead8_congr hB (k := 9) (by omega), memRead16_congr hB (k := 10) (by omega),
    memRead32_congr hB (k := 12) (by omega), memRead32_congr hB (k := 16) (by omega)]

theorem parseIpv4_congr : parseIpv4 B o n = parseIpv4 B' o n := by
  unfold parseIpv4
  by_cases h : n < 20
  · simp [h]
  · rw [ihlOf_congr hB (by omega), totalLenOf_congr hB (by omega), ipRecord_congr hB (by omega)]

theorem dataOffOf_congr (hn : 20 ≤ n) : dataOffOf B o = dataOffOf B' o := by
  simp only [dataOffOf, memRead8_congr hB (k := 12) (by omega)]

theorem tcpHdrLenOf_congr (hn : 20 ≤ n) : tcpHdrLenOf B o = tcpHdrLenOf B' o := by
  simp only [tcpHdrLenOf, dataOffOf_congr hB hn]

theorem tcpRecord_congr (hn : 20 ≤ n) : tcpRecord B o n = tcpRecord B' o n := by
  simp only [tcpRecord, tcpHdrLenOf_congr hB hn, dataOffOf_congr hB hn,
    memRead16_congr hB (k := 0) (by omega), memRead16_congr hB (k := 2) (by omega),
    memRead32_congr hB (k := 4) (by omega), memRead32_congr hB (k := 8) (by omega),
    memRead8_congr hB (k := 12) (by omega), memRead8_congr hB (k := 13) (by omega),
    memRead16_congr hB (k := 14) (by omega), memRead16_congr hB (k := 16) (by omega),
    memRead16_congr hB (k := 18) (by omega)]

theorem parseTcp_congr : parseTcp B o n = parseTcp B' o n := by
  unfold parseTcp
  by_cases h : n < 20
  · simp [h]
  · rw [dataOffOf_congr hB (by omega), tcpHdrLenOf_congr hB (by omega), tcpRecord_congr hB (by omega)]

theorem parseUdp_congr : parseUdp B o n = parseUdp B' o n := by
  unfold parseUdp
  by_cases h : n < 8
  · simp [h]
  · simp only [udpRecord, memRead16_congr hB (k := 0) (by omega), memRead16_congr hB (k := 2) (by omega),
      memRead16_congr hB (k := 4) (by omega), memRead16_congr hB (k := 6) (by omega)]

theorem parseIcmp_congr : parseIcmp B o n = parseIcmp B' o n := by
  unfold parseIcmp
  by_cases h : n < 4
  · simp [h]
  · simp only [icmpRecord, memRead8_congr hB (k := 0) (by omega), memRead8_congr hB (k := 1) (by omega),
      memRead16_congr hB (k := 2) (by omega)]

end Locality

end Sys2Proof.Machine
end

