-- ==== Sys2Proof/Laws/Commands.lean ====
section
/-! SUPPORT. Every command is the commit of one outcome (30_encoding R70, R71). -/

namespace Sys2Proof.Machine

/-- The outcome `Exec` computes for a command (30_encoding R70). -/
def outcomeOf (i : Instr) (s : State) : Parsed Groups :=
  match i with
  | .parseEth => onWindow cmdParseEth s
  | .parseIpv4 => onWindow cmdParseIpv4 s
  | .parseTcp => onWindow cmdParseTcp s
  | .parseUdp => onWindow cmdParseUdp s
  | .parseIcmp => onWindow cmdParseIcmp s
  | .parseFrame => onWindow cmdParseFrame s
  | .classifyEtype => cmdClassifyEtype (etypeOperand s)
  | .classifyIpproto => cmdClassifyIpproto (byteOperand s)
  | .classifyIcmptype => cmdClassifyIcmptype (byteOperand s)

/-- Every command answers the commit of its outcome. -/
theorem exec_eq (i : Instr) (s : State) : exec i s = .next (commit (outcomeOf i s) s) := by
  cases i <;> rfl

/-- If a command answers a next state, that state is the commit of its outcome. -/
theorem exec_next {i : Instr} {s t : State} (h : exec i s = .next t) :
    t = commit (outcomeOf i s) s := by
  rw [exec_eq] at h; exact (Host.Outcome.next.inj h).symm

/-- The engine's move is the commit of some outcome. -/
theorem engineMove_eq (s : State) : ∃ r, engineMove s = .next (commit r s) := by
  unfold engineMove
  split
  · exact ⟨_, exec_eq _ _⟩
  · exact ⟨_, rfl⟩

theorem onWindow_fits {f : (Nat → Byte) → Nat → Nat → Parsed Groups} {s : State}
    (h : s.loff.toNat + s.llen.toNat ≤ Config.bufSize) :
    onWindow f s = f (byteAt s) s.loff.toNat s.llen.toNat := by
  simp [onWindow, (exceedsBuffer_false _).2 h]

theorem onWindow_exceeds {f : (Nat → Byte) → Nat → Nat → Parsed Groups} {s : State}
    (h : ¬s.loff.toNat + s.llen.toNat ≤ Config.bufSize) : onWindow f s = .err .badWindow .cmd := by
  simp [onWindow, (exceedsBuffer_iff _).2 (Nat.lt_of_not_le h)]

end Sys2Proof.Machine
end

