-- ==== Sys2Proof/Laws/Decode.lean ====
section
/-! SUPPORT. The decoder against the table of 30_encoding R66. -/

namespace Sys2Proof.Machine

/-- A command word from its two fields. -/
theorem word_of_fields (w : Word) :
    w.toNat = (w.extractLsb' 0 4).toNat + 16 * (w.extractLsb' 4 28).toNat := by
  have := w.isLt
  simp only [BitVec.extractLsb'_toNat, Nat.shiftRight_eq_div_pow]
  omega

/-- The opcode of a command selects that command. -/
theorem ofOpcode_opcode (i : Instr) : Instr.ofOpcode i.opcode = some i := by cases i <;> rfl

/-- Only its own opcode selects a command. -/
theorem ofOpcode_eq_some (op : BitVec 4) (i : Instr) :
    Instr.ofOpcode op = some i ↔ op = i.opcode := by
  constructor
  · revert op; cases i <;> decide
  · rintro rfl; exact ofOpcode_opcode i

/-- A word decodes to the command whose opcode it has, when its reserved bits are 0. -/
theorem decode_eq_command (w : Word) (i : Instr) :
    decode w = .command i ↔ w.extractLsb' 4 28 = 0 ∧ w.extractLsb' 0 4 = i.opcode := by
  rw [← ofOpcode_eq_some]
  simp only [decode, RawCommand.rsvdZero, RawCommand.ofWord, beq_iff_eq]
  by_cases h : w.extractLsb' 4 28 = 0#28
  · simp only [h, if_true]
    cases Instr.ofOpcode (w.extractLsb' 0 4) <;> simp
  · simp [h]

/-- The assigned opcodes (30_encoding R66, R67). -/
theorem ofOpcode_isSome (op : BitVec 4) :
    (Instr.ofOpcode op).isSome = true ↔
      (1 ≤ op.toNat ∧ op.toNat ≤ 6 ∨ 8 ≤ op.toNat ∧ op.toNat ≤ 10) := by
  revert op; decide

/-- The words that are no command (30_encoding R67). -/
theorem decode_illegal (w : Word) :
    (∃ why, decode w = .illegal why) ↔ w.extractLsb' 4 28 ≠ 0 ∨
      ¬(1 ≤ (w.extractLsb' 0 4).toNat ∧ (w.extractLsb' 0 4).toNat ≤ 6 ∨
        8 ≤ (w.extractLsb' 0 4).toNat ∧ (w.extractLsb' 0 4).toNat ≤ 10) := by
  rw [← ofOpcode_isSome]
  simp only [decode, RawCommand.rsvdZero, RawCommand.ofWord, beq_iff_eq]
  by_cases h : w.extractLsb' 4 28 = 0#28
  · simp only [h, if_true]
    cases Instr.ofOpcode (w.extractLsb' 0 4) <;> simp
  · simp [h]

end Sys2Proof.Machine
end

