-- ==== Sys2Proof/Laws/PerInstr.lean ====
section
/-! SUPPORT. One lemma per command, about the command as syntax: it is well formed, and its word decodes
back to it (30_encoding R66). -/

namespace Sys2Proof.Laws.RoundTrip

open Sys2Proof

/-- The command is well formed, its word has its opcode and no reserved bit, and decodes to it. -/
def Statement (i : Instr) : Prop :=
  i.wellFormed = true ∧ RawCommand.ofWord (encode i) = ⟨i.opcode, 0#28⟩ ∧ decode (encode i) = .command i

theorem parseEth : Statement .parseEth := by unfold Statement; decide
theorem parseIpv4 : Statement .parseIpv4 := by unfold Statement; decide
theorem parseTcp : Statement .parseTcp := by unfold Statement; decide
theorem parseUdp : Statement .parseUdp := by unfold Statement; decide
theorem parseIcmp : Statement .parseIcmp := by unfold Statement; decide
theorem parseFrame : Statement .parseFrame := by unfold Statement; decide
theorem classifyEtype : Statement .classifyEtype := by unfold Statement; decide
theorem classifyIpproto : Statement .classifyIpproto := by unfold Statement; decide
theorem classifyIcmptype : Statement .classifyIcmptype := by unfold Statement; decide

end Sys2Proof.Laws.RoundTrip
end

