-- ==== Sys2Proof/Laws/Results.lean ====
section
/-! SUPPORT. What the result registers hold after each parse function succeeds, and the cases of
PARSE_FRAME. -/

namespace Sys2Proof.Machine

/-- An `Ok` outcome fills exactly the groups it marks valid (30_encoding R71). -/
theorem ofGroups_zeroUnlessValid (g : Groups) : ZeroUnlessValid (Results.ofGroups g) := by
  constructor <;> simp only [Results.ofGroups] <;> intro h <;> simp_all

/-- Cleared result registers have no valid group and no data. -/
theorem zero_zeroUnlessValid : ZeroUnlessValid Results.zero := by constructor <;> intro _ <;> rfl

/-- Everything PARSE_FRAME's dispatch can do up to the transport layer (47_pipeline R111). -/
theorem cmdParseFrame_cases (B : Nat → Byte) (o n : Nat) :
  (∃ c l, cmdParseFrame B o n = .err c l ∧ parseEth B o n = .err c l) ∨
  (∃ e, parseEth B o n = .ok e ∧
    ((e.etypeClass ≠ 3 ∧ cmdParseFrame B o n = .ok {eth := some e}) ∨
     (e.etypeClass = 3 ∧
      ((∃ c l, parseIpv4 B e.payOff.toNat e.payLen.toNat = .err c l ∧
          cmdParseFrame B o n = .err c l) ∨
       (∃ i, parseIpv4 B e.payOff.toNat e.payLen.toNat = .ok i ∧
          cmdParseFrame B o n = parseTransport B e i))))) := by
  unfold cmdParseFrame parseNetwork
  cases h : parseEth B o n with
  | err c l => left; exact ⟨c, l, by simp⟩
  | ok e =>
    right; refine ⟨e, rfl, ?_⟩
    by_cases h3 : e.etypeClass = 3
    · right; refine ⟨h3, ?_⟩
      cases h4 : parseIpv4 B e.payOff.toNat e.payLen.toNat with
      | err c l => left; exact ⟨c, l, by simp [h3, h4]⟩
      | ok i => right; exact ⟨i, by simp [h3, h4]⟩
    · left; exact ⟨h3, by simp only [h3, if_false]⟩

/-- "255: never produced" (30_encoding R78). -/
theorem classifyEtherType_ne_255 (v : BitVec 16) : classifyEtherType Config.etypeTable v ≠ 255 := by
  unfold classifyEtherType
  split; · decide
  split; · decide
  split; · decide
  split; · decide
  split; · decide
  split; · decide
  split
  · rename_i c h
    have := (restrictEtypeTable_some _ _ _ h).2.2
    intro hc; rw [hc] at this; simp at this
  · decide

/-- A decoded Ethernet group is sound, its payload starts inside the window and ends where it ends, and
its class is not 255. -/
theorem parseEth_sound {B : Nat → Byte} {o n : Nat} {e : EthGroup} (hf : o + n ≤ Config.bufSize)
    (h : parseEth B o n = .ok e) :
    EthSound e ∧ e.payOff.toNat + e.payLen.toNat = o + n ∧ e.etypeClass ≠ 255 ∧
      o ≤ e.payOff.toNat := by
  obtain ⟨vl, et, hl, h1, h2, rfl⟩ := parseEth_ok h
  have a1 := toReg_toNat (x := o + hl) (by omega)
  have a2 := toReg_toNat (x := n - hl) (by omega)
  have a3 := toReg_toNat (x := n) (by omega)
  refine ⟨⟨rfl, ?_, ?_⟩, ?_, classifyEtherType_ne_255 _, ?_⟩
  · cases vl <;> simp only [ethRecord, a2, a3] <;> simp_all
  · simp only [InBuffer, ethRecord, a1, a2]; omega
  · simp only [ethRecord, a1, a2]; omega
  · simp only [ethRecord, a1]; omega

/-- A decoded IPv4 group is sound, and its descriptors lie inside the window. -/
theorem parseIpv4_sound {B : Nat → Byte} {o n : Nat} {e : IpGroup} (hf : o + n ≤ Config.bufSize)
    (h : parseIpv4 B o n = .ok e) :
    IpSound e ∧ e.payOff.toNat + e.payLen.toNat ≤ o + n ∧
      e.optOff.toNat + e.optLen.toNat ≤ o + n ∧ e.payOff.toNat = o + ihlOf B o ∧
      e.payLen.toNat = totalLenOf B o - ihlOf B o ∧
      (e.optPresent = true → e.optOff.toNat = o + 20) := by
  obtain ⟨h1, h2, h3, rfl⟩ := parseIpv4_ok h
  have hle := ihlOf_le B o
  have hm := ihlOf_mod B o
  have a1 := toReg_toNat (x := o + ihlOf B o) (by omega)
  have a2 := toReg_toNat (x := totalLenOf B o - ihlOf B o) (by omega)
  have a3 := toReg_toNat (x := o + 20) (by omega)
  have a4 := toReg_toNat (x := ihlOf B o - 20) (by omega)
  have a5 : (BitVec.ofNat 6 (ihlOf B o)).toNat = ihlOf B o := by simp only [BitVec.toNat_ofNat]; omega
  refine ⟨⟨?_, rfl, ?_, ?_, ?_, ?_, ?_⟩, ?_, ?_, ?_, ?_, ?_⟩
  · simp only [ipRecord, a5]; omega
  · simp only [ipRecord, a5]
  · simp only [ipRecord, a5, decide_eq_true_eq]; intro h
    simp only [h, if_true, a1, a3, a4]; exact ⟨trivial, by omega⟩
  · simp only [ipRecord, decide_eq_false_iff_not]; intro h; simp [h]
  · simp only [ipRecord, a5, a2]; simp only [totalLenOf] at *; omega
  · simp only [ipRecord, InBuffer, a1, a2]; omega
  · simp only [ipRecord, a1, a2]; omega
  · simp only [ipRecord]; split
    · rw [a3, a4]; omega
    · simp
  · simp only [ipRecord, a1]
  · simp only [ipRecord, a2]
  · simp only [ipRecord, decide_eq_true_eq]; intro h; simp only [h, if_true, a3]

/-- A decoded TCP group is sound, and its payload lies inside the window. -/
theorem parseTcp_sound {B : Nat → Byte} {o n : Nat} {e : TcpGroup} (hf : o + n ≤ Config.bufSize)
    (h : parseTcp B o n = .ok e) :
    TcpSound e ∧ e.payOff.toNat + e.payLen.toNat ≤ o + n ∧ o ≤ e.payOff.toNat := by
  obtain ⟨h1, h2, rfl⟩ := parseTcp_ok h
  have hle := tcpHdrLenOf_le B o
  have a1 := toReg_toNat (x := o + tcpHdrLenOf B o) (by omega)
  have a2 := toReg_toNat (x := n - tcpHdrLenOf B o) (by omega)
  have a5 : (BitVec.ofNat 6 (tcpHdrLenOf B o)).toNat = tcpHdrLenOf B o := by
    simp only [BitVec.toNat_ofNat]; omega
  refine ⟨⟨h1, ?_, ?_, ?_⟩, ?_, ?_⟩
  · simp only [tcpRecord, a5]; rfl
  · simp only [tcpRecord, a5]
  · simp only [tcpRecord, InBuffer, a1, a2]; omega
  · simp only [tcpRecord, a1, a2]; omega
  · simp only [tcpRecord, a1]; omega

/-- A decoded UDP group's payload lies inside the window. -/
theorem parseUdp_sound {B : Nat → Byte} {o n : Nat} {e : UdpGroup} (hf : o + n ≤ Config.bufSize)
    (h : parseUdp B o n = .ok e) :
    e.payOff.toNat + e.payLen.toNat ≤ o + n ∧ o ≤ e.payOff.toNat := by
  obtain ⟨h1, rfl⟩ := parseUdp_ok h
  have a1 := toReg_toNat (x := o + 8) (by omega)
  have a2 := toReg_toNat (x := n - 8) (by omega)
  simp only [udpRecord, a1, a2]; omega

end Sys2Proof.Machine
end

