-- ==== Sys2Proof/Laws/Step.lean ====
section
/-! SUPPORT. Everything a step can do, said once: the engine's commit, and each move of the outside
world. -/

namespace Sys2Proof.Machine

theorem busy_of_eng {s : State} (h : s.eng = .busy) : s.busy = true := (busy_iff s).2 h

theorem busy_of_idle {s : State} (h : s.eng = .idle) : s.busy = false := (not_busy_iff s).2 h

/-- A register's address is the only one that names it. -/
theorem addr_eq {addr : HostAddr} {r : Reg} (h : r.addr = addr.toNat) : addr = busAddr r.addr := by
  apply BitVec.eq_of_toNat_eq
  rw [busAddr_toNat (by have := addr_lt r; omega), h]

/-- The legal writes that store while the engine is IDLE and are dropped while it is BUSY
(20_memory R56): `t` is `s` after the store of `v`. -/
inductive Stored (addr : HostAddr) (w : Width) (v : Word) (s : State) : State → Prop where
  | inOff : addr = 0x000C#16 → w = .w32 → Stored addr w v s { s with inOff := v }
  | inLen : addr = 0x0010#16 → w = .w32 → Stored addr w v s { s with inLen := v }
  | classArg : addr = 0x0014#16 → w = .w32 →
      Stored addr w v s { s with classArg := v.extractLsb' 0 16 }
  | byte (a : Nat) : addr.toNat = 0x1000 + a → w = .w8 → a < Config.bufSize →
      Stored addr w v s (writeByte a (v.extractLsb' 0 8) s)
  | word (a : Nat) : addr.toNat = 0x1000 + a → w = .w32 → a % 4 = 0 → a + 3 < Config.bufSize →
      Stored addr w v s (writeBufWord a v s)

/-- Everything a write can do. -/
theorem hostWrite_cases (addr : HostAddr) (w : Width) (v : Word) (s : State) :
    hostWrite addr w v s = s ∨
    (s.rst = false ∧
      ((¬LegalAccess addr w ∧ hostWrite addr w v s = accessError s) ∨
       (addr = 0x0000#16 ∧ w = .w32 ∧ hostWrite addr w v s = writeCmd v s) ∨
       (addr = 0x0004#16 ∧ w = .w32 ∧ hostWrite addr w v s = writeStatus v s) ∨
       (addr = 0x0008#16 ∧ w = .w32 ∧ hostWrite addr w v s = { s with irqEn := v.getLsbD 0 }) ∨
       (s.busy = true ∧ hostWrite addr w v s = dropWrite s) ∨
       (s.busy = false ∧ Stored addr w v s (hostWrite addr w v s)))) := by
  unfold hostWrite
  split
  · exact .inl rfl
  · rename_i hr
    have hr : s.rst = false := by simpa using hr
    rcases target_cases addr w with ⟨r, h1, rfl, h2⟩ | ⟨a, h1, rfl, h2, h3⟩ | ⟨a, h1, rfl, h2, h3, h4⟩ |
      ⟨h1, h2⟩
    · have ha := addr_eq h2
      rw [h1]
      cases r with
      | cmd => exact .inr ⟨hr, .inr (.inl ⟨ha, rfl, rfl⟩)⟩
      | status => exact .inr ⟨hr, .inr (.inr (.inl ⟨ha, rfl, rfl⟩))⟩
      | ctrl => exact .inr ⟨hr, .inr (.inr (.inr (.inl ⟨ha, rfl, rfl⟩)))⟩
      | inOff =>
        refine .inr ⟨hr, .inr (.inr (.inr (.inr ?_)))⟩
        cases hb : s.busy <;> simp only [writeReg, unlessBusy, hb]
        · exact .inr ⟨trivial, .inOff ha rfl⟩
        · exact .inl ⟨trivial, rfl⟩
      | inLen =>
        refine .inr ⟨hr, .inr (.inr (.inr (.inr ?_)))⟩
        cases hb : s.busy <;> simp only [writeReg, unlessBusy, hb]
        · exact .inr ⟨trivial, .inLen ha rfl⟩
        · exact .inl ⟨trivial, rfl⟩
      | classArg =>
        refine .inr ⟨hr, .inr (.inr (.inr (.inr ?_)))⟩
        cases hb : s.busy <;> simp only [writeReg, unlessBusy, hb]
        · exact .inr ⟨trivial, .classArg ha rfl⟩
        · exact .inl ⟨trivial, rfl⟩
      | _ => exact .inl rfl
    · rw [h1]
      refine .inr ⟨hr, .inr (.inr (.inr (.inr ?_)))⟩
      cases hb : s.busy <;> simp only [unlessBusy, hb]
      · exact .inr ⟨trivial, .byte a h2 rfl h3⟩
      · exact .inl ⟨trivial, rfl⟩
    · rw [h1]
      refine .inr ⟨hr, .inr (.inr (.inr (.inr ?_)))⟩
      cases hb : s.busy <;> simp only [unlessBusy, hb]
      · exact .inr ⟨trivial, .word a h2 rfl h3 h4⟩
      · exact .inl ⟨trivial, rfl⟩
    · rw [h1]
      exact .inr ⟨hr, .inl ⟨h2, rfl⟩⟩

/-- A host's command, from an IDLE engine, is the acceptance of its word with the two input registers
written (47_pipeline R113). -/
theorem hostCommand_idle (i : Instr) (off len : Word) {s : State} (h : s.eng = .idle)
    (hr : s.rst = false) :
    hostCommand i off len s = accept (encode i) { s with inOff := off, inLen := len } := by
  have hb := busy_of_idle h
  have t1 : target 0x000C#16 .w32 = .reg .inOff := rfl
  have t2 : target 0x0010#16 .w32 = .reg .inLen := rfl
  have t3 : target 0x0000#16 .w32 = .reg .cmd := rfl
  have e1 : hostWrite 0x000C#16 .w32 off s = { s with inOff := off } := by
    simp [hostWrite, hr, t1, writeReg, unlessBusy, hb]
  have e2 : hostWrite 0x0010#16 .w32 len { s with inOff := off } =
      { s with inOff := off, inLen := len } := by
    simp only [hostWrite, hr, t2, writeReg, unlessBusy]; simp [State.busy, h]
  rw [hostCommand, e1, e2]
  simp only [hostWrite, hr, t3, writeReg, writeCmd]; simp [State.busy, h]

/-- A store keeps the canonical form of the buffer. -/
theorem Stored.wf {addr : HostAddr} {w : Width} {v : Word} {s t : State} (h : Stored addr w v s t)
    (hw : s.buf.wf) : t.buf.wf := by
  cases h with
  | byte a _ _ ha => exact Memory.write_wf _ _ ha hw
  | word a _ _ _ ha => exact writeBufWord_wf _ _ ha hw
  | _ => exact hw

/-- Every write keeps the canonical form of the buffer. -/
theorem hostWrite_wf (addr : HostAddr) (w : Width) (v : Word) {s : State} (h : s.buf.wf) :
    (hostWrite addr w v s).buf.wf := by
  rcases hostWrite_cases addr w v s with e | ⟨-, ⟨-, e⟩ | ⟨-, -, e⟩ | ⟨-, -, e⟩ | ⟨-, -, e⟩ | ⟨-, e⟩ | ⟨-, e⟩⟩
  · rwa [e]
  · rwa [e]
  · rw [e, writeCmd]; split <;> exact h
  · rwa [e]
  · rwa [e]
  · rwa [e]
  · exact e.wf h

/-- A write leaves the outside world's moves alone. -/
@[simp] theorem hostWrite_agenda (addr : HostAddr) (w : Width) (v : Word) (s : State) :
    (hostWrite addr w v s).agenda = s.agenda := by
  rcases hostWrite_cases addr w v s with
    e | ⟨-, ⟨-, e⟩ | ⟨-, -, e⟩ | ⟨-, -, e⟩ | ⟨-, -, e⟩ | ⟨-, e⟩ | ⟨-, e⟩⟩
  · rw [e]
  · rw [e]; rfl
  · rw [e, writeCmd]; split <;> rfl
  · rw [e]; rfl
  · rw [e]
  · rw [e]; rfl
  · generalize hostWrite addr w v s = t at e
    cases e <;> simp

/-- A write leaves the level of the reset input alone. -/
@[simp] theorem hostWrite_rst (addr : HostAddr) (w : Width) (v : Word) (s : State) :
    (hostWrite addr w v s).rst = s.rst := by
  rcases hostWrite_cases addr w v s with
    e | ⟨-, ⟨-, e⟩ | ⟨-, -, e⟩ | ⟨-, -, e⟩ | ⟨-, -, e⟩ | ⟨-, e⟩ | ⟨-, e⟩⟩
  · rw [e]
  · rw [e]; rfl
  · rw [e, writeCmd]; split <;> rfl
  · rw [e]; rfl
  · rw [e]
  · rw [e]; rfl
  · generalize hostWrite addr w v s = t at e
    cases e <;> simp

/-- A read leaves the outside world's moves alone. -/
@[simp] theorem hostRead_agenda (addr : HostAddr) (w : Width) (s : State) :
    (hostRead addr w s).agenda = s.agenda := by
  obtain ⟨d, k, e | ⟨-, e⟩⟩ := hostRead_eq addr w s <;> rw [e]

/-- A read leaves the level of the reset input alone. -/
@[simp] theorem hostRead_rst (addr : HostAddr) (w : Width) (s : State) :
    (hostRead addr w s).rst = s.rst := by
  obtain ⟨d, k, e | ⟨-, e⟩⟩ := hostRead_eq addr w s <;> rw [e]

/-- Everything a poll of `STATUS` can do to the block: nothing (30_encoding R83). The host has read
`STATUS`, or 0 while `rst` is asserted; a poll that saw BUSY is put back with one poll less. -/
theorem pollStatus_eq (late : Bool) (polls : Nat) (s : State) :
    pollStatus late polls s = { s with
      rdata := if s.rst then 0 else statusWord s
      agenda := if !s.rst && s.busy then ⟨late, .wait (polls - 1)⟩ :: s.agenda else s.agenda } := by
  cases hr : s.rst with
  | true => simp [pollStatus, hostRead, hr, returnData]
  | false =>
    have hb := statusWord_busy s
    simp only [pollStatus, hostRead_status hr, returnData_rdata, returnData_agenda, hb]
    cases s.busy <;> simp [returnData, hr]

/-- With no command in flight, the step is the next move of the outside world. -/
theorem step_idle {s : State} (h : s.eng = .idle) : step s = .next (outsideMove s) := by
  simp [step, engineTurn, busy_of_idle h]

/-- When the engine does not move, the step is the next move of the outside world. -/
theorem step_outside {s : State} (h : engineTurn s = false) : step s = .next (outsideMove s) := by
  simp [step, h]

/-- The two things a step can be: a commit of the command in flight, or a move of the outside world. -/
theorem step_cases {s t : State} (h : step s = .next t) :
    (engineTurn s = true ∧ s.busy = true ∧ ∃ r, t = commit r s) ∨
    (engineTurn s = false ∧ t = outsideMove s) := by
  unfold step at h
  split at h
  · rename_i ht
    obtain ⟨r, hr⟩ := engineMove_eq s
    rw [hr] at h
    have hb : s.busy = true := by
      unfold engineTurn at ht
      cases hb : s.busy
      · rw [hb] at ht; cases ht
      · rfl
    exact .inl ⟨ht, hb, r, (Host.Outcome.next.inj h).symm⟩
  · rename_i ht
    exact .inr ⟨by simpa using ht, (Host.Outcome.next.inj h).symm⟩

/-- Everything a move of the outside world can be. -/
theorem outsideMove_cases (s : State) :
    (s.agenda = [] ∧ outsideMove s = s) ∨
    ∃ late rest,
      (∃ addr w, s.agenda = ⟨late, .access (.read addr w)⟩ :: rest ∧
        outsideMove s = hostRead addr w { s with agenda := rest }) ∨
      (∃ addr w v, s.agenda = ⟨late, .access (.write addr w v)⟩ :: rest ∧
        outsideMove s = hostWrite addr w v { s with agenda := rest }) ∨
      (∃ polls, s.agenda = ⟨late, .wait polls⟩ :: rest ∧
        outsideMove s = pollStatus late polls { s with agenda := rest }) ∨
      (∃ level, s.agenda = ⟨late, .rst level⟩ :: rest ∧
        outsideMove s = setRst level { s with agenda := rest }) := by
  cases h : s.agenda with
  | nil => exact .inl ⟨rfl, by simp [outsideMove, h]⟩
  | cons e rest =>
    obtain ⟨late, a⟩ := e
    refine .inr ⟨late, rest, ?_⟩
    have ho : outsideMove s = perform ⟨late, a⟩ { s with agenda := rest } := by simp [outsideMove, h]
    cases a with
    | access acc =>
      cases acc with
      | read addr w => exact .inl ⟨addr, w, rfl, ho⟩
      | write addr w v => exact .inr (.inl ⟨addr, w, v, rfl, ho⟩)
    | wait polls => exact .inr (.inr (.inl ⟨polls, rfl, ho⟩))
    | rst level => exact .inr (.inr (.inr ⟨level, rfl, ho⟩))

/-- The reset input: asserted from released it resets the block, else only the level changes
(70_reset_and_hazards R128). -/
theorem setRst_cases (level : Bool) (s : State) :
    (level = true ∧ s.rst = false ∧ setRst level s = enterReset s) ∨
    ((level = true → s.rst = true) ∧ setRst level s = { s with rst := level }) := by
  cases level <;> cases h : s.rst <;> simp [setRst, h]

end Sys2Proof.Machine
end

