-- ==== Sys2Proof/Tests/Slice0.lean ====
section
/-! SUPPORT. The model's own tests. Expected values come from the spec's vectors (95_test_vectors) or are
written out from the rule each comment names. -/

namespace Sys2Proof.Tests

open Sys2Proof Sys2Proof.Machine

/-! ### Helpers -/

/-- A command with this window and argument in flight, over these buffer bytes from offset 0. -/
def inFlight (n : Nat) (bytes : List Byte) : State :=
  { State.reset with
    eng := .busy
    inLen := toReg n
    llen := toReg n
    buf := bytes.mapIdx (fun k b => (k, b)) }

/-- A classify command in flight with this argument. -/
def classifying (v : BitVec 16) : State := { State.reset with eng := .busy, classArg := v, larg := v }

/-- The state a command leaves. -/
def after (i : Instr) (s : State) : State :=
  match exec i s with
  | .next t => t
  | .fault _ => s
  | .refused _ => s

/-- The state one step leaves. -/
def stepped (s : State) : State :=
  match step s with
  | .next t => t
  | .fault _ => s
  | .refused _ => s

/-- The address bytes `D` of 95_test_vectors L2.4. -/
def macBytes : List Byte := [0xaa, 0xbb, 0xcc, 0xdd, 0xee, 0xff, 0x00, 0x11, 0x22, 0x33, 0x44, 0x55]

/-- The header `H(b0, tl)` of 95_test_vectors L2.5. -/
def ipBytes (b0 tl : Byte) : List Byte :=
  [b0, 0x00, 0x00, tl, 0x00, 0x00, 0x00, 0x00, 0x40, 0x06, 0x00, 0x00, 0x0a, 0x00, 0x00, 0x01,
   0x0a, 0x00, 0x00, 0x02]

/-- The header `T(b12, b13)` of 95_test_vectors L2.6. -/
def tcpBytes (b12 b13 : Byte) : List Byte :=
  [0x04, 0xd2, 0x00, 0x50, 0xff, 0xff, 0xff, 0xff, 0x00, 0x00, 0x00, 0x01, b12, b13, 0x72, 0x10,
   0xab, 0xcd, 0x00, 0x07]

/-- The frame of program P2 (95_test_vectors L3) up to the end of its UDP payload. -/
def p2Frame : List Byte :=
  macBytes ++ [0x08, 0x00] ++
  [0x45, 0x00, 0x00, 0x20, 0x12, 0x34, 0x40, 0x00, 0x40, 0x11, 0xa7, 0x45, 0xc0, 0xa8, 0x00, 0x01,
   0xc0, 0xa8, 0x00, 0x02] ++
  [0x04, 0xd2, 0x16, 0x2e, 0x00, 0x0c, 0x00, 0x00, 0x64, 0x61, 0x74, 0x61]

/-! ### Well-formedness and decoding (30_encoding R65 to R67) -/

theorem test_wf_refuses_reserved_bits : (RawCommand.mk 0x1#4 1#28).wellFormed = false := by decide
theorem test_wf_refuses_opcode_0 : (RawCommand.mk 0x0#4 0#28).wellFormed = false := by decide
theorem test_wf_refuses_opcode_7 : (RawCommand.mk 0x7#4 0#28).wellFormed = false := by decide
theorem test_wf_refuses_opcode_b : (RawCommand.mk 0xB#4 0#28).wellFormed = false := by decide
theorem test_wf_accepts_opcode_a : (RawCommand.mk 0xA#4 0#28).wellFormed = true := by decide
theorem test_wf_instr (i : Instr) : i.wellFormed = true := by cases i <;> decide

theorem test_decode_parse_eth :
    decode 0b00000000000000000000000000000001#32 = .command .parseEth := by decide
theorem test_decode_parse_ipv4 :
    decode 0b00000000000000000000000000000010#32 = .command .parseIpv4 := by decide
theorem test_decode_parse_tcp :
    decode 0b00000000000000000000000000000011#32 = .command .parseTcp := by decide
theorem test_decode_parse_udp :
    decode 0b00000000000000000000000000000100#32 = .command .parseUdp := by decide
theorem test_decode_parse_icmp :
    decode 0b00000000000000000000000000000101#32 = .command .parseIcmp := by decide
theorem test_decode_parse_frame :
    decode 0b00000000000000000000000000000110#32 = .command .parseFrame := by decide
theorem test_decode_classify_etype :
    decode 0b00000000000000000000000000001000#32 = .command .classifyEtype := by decide
theorem test_decode_classify_ipproto :
    decode 0b00000000000000000000000000001001#32 = .command .classifyIpproto := by decide
theorem test_decode_classify_icmptype :
    decode 0b00000000000000000000000000001010#32 = .command .classifyIcmptype := by decide
theorem test_decode_zero : decode 0x00000000#32 = .illegal .reservedOpcode := by decide
theorem test_decode_f : decode 0x0000000F#32 = .illegal .reservedOpcode := by decide
theorem test_decode_11 : decode 0x00000011#32 = .illegal .reservedBits := by decide
theorem test_decode_table_word : decodeTableWord 32 0xA = some .classifyIcmptype := by decide

/-! ### The commands (95_test_vectors L2) -/

/-- L2.4 row 2. -/
theorem test_eth_untagged :
    let t := after .parseEth (inFlight 14 (macBytes ++ [0x08, 0x00]))
    statusWord t = 0x2 ∧ t.results.read .valid = 0x1 ∧ t.results.read .ethType = 0x00030800 ∧
      t.results.read .ethDstHi = 0xAABB ∧ t.results.read .ethDstLo = 0xCCDDEEFF ∧
      t.results.read .ethSrcHi = 0x11 ∧ t.results.read .ethSrcLo = 0x22334455 ∧
      t.results.read .ethFrameLen = 14 ∧ t.results.read .ethPayOff = 14 ∧
      t.results.read .ethPayLen = 0 := by decide

/-- L2.4 row 5: the inner tag is not stripped. -/
theorem test_eth_double_tag :
    let t := after .parseEth (inFlight 22
      (macBytes ++ [0x81, 0x00, 0x00, 0x64, 0x81, 0x00, 0x00, 0x65, 0x08, 0x00]))
    t.results.read .valid = 0x1 ∧ t.results.read .ethType = 0x01058100 ∧
      t.results.read .ethPayOff = 18 ∧ t.results.read .ethPayLen = 4 := by decide

/-- L2.5 `H(4F, 60)` plus 40 option bytes. -/
theorem test_ipv4_options :
    let t := after .parseIpv4 (inFlight 60 (ipBytes 0x4F 60))
    statusWord t = 0x2 ∧ t.results.read .valid = 0x02 ∧ t.results.read .ipW0 = 0x00003C04 ∧
      t.results.read .ipW1 = 0x0000003C ∧ t.results.read .ipW3 = 0x00000640 ∧
      t.results.read .ipW4 = 0x00000103 ∧ t.results.read .ipSrc = 0x0A000001 ∧
      t.results.read .ipDst = 0x0A000002 ∧ t.results.read .ipOptOff = 20 ∧
      t.results.read .ipOptLen = 40 ∧ t.results.read .ipPayOff = 60 ∧
      t.results.read .ipPayLen = 0 := by decide

/-- L2.5 `H(44, 100)`, 30 bytes: IHL is tested before the total length (43_ipv4 R96). -/
theorem test_ipv4_priority :
    let t := after .parseIpv4 (inFlight 30 (ipBytes 0x44 100))
    statusWord t = 0x00000222 ∧ t.results = .zero := by decide

/-- L2.6 `T(f0, 11)` plus 40 option bytes and 3 payload bytes. -/
theorem test_tcp_options :
    let t := after .parseTcp (inFlight 63 (tcpBytes 0xf0 0x11))
    statusWord t = 0x2 ∧ t.results.read .valid = 0x04 ∧ t.results.read .tcpPorts = 0x04D20050 ∧
      t.results.read .tcpSeq = 0xFFFFFFFF ∧ t.results.read .tcpAck = 1 ∧
      t.results.read .tcpCtl = 0x3C0F0211 ∧ t.results.read .tcpWinCsum = 0x7210ABCD ∧
      t.results.read .tcpUrg = 7 ∧ t.results.read .tcpPayOff = 60 ∧
      t.results.read .tcpPayLen = 3 := by decide

/-- L2.6 `T(5f, 00)`: bits 3:1 of byte 12 are not reported. -/
theorem test_tcp_ns :
    (after .parseTcp (inFlight 20 (tcpBytes 0x5f 0x00))).results.read .tcpCtl = 0x14050100 := by decide

/-- L2.7 row 3: declared length 65535 is not checked. -/
theorem test_udp_declared_length :
    let t := after .parseUdp (inFlight 10 [0x00, 0x35, 0xc0, 0x00, 0xff, 0xff, 0x00, 0x00, 0x61, 0x62])
    t.results.read .valid = 0x08 ∧ t.results.read .udpPorts = 0x0035C000 ∧
      t.results.read .udpLenCsum = 0xFFFF0000 ∧ t.results.read .udpPayOff = 8 ∧
      t.results.read .udpPayLen = 2 := by decide

/-- L2.7 row 1. -/
theorem test_udp_truncated :
    statusWord (after .parseUdp (inFlight 7 [0x04, 0xd2, 0x16, 0x2e, 0x00, 0x0c, 0x00])) = 0x00000412 := by
  decide

/-- L2.8 row 2. -/
theorem test_icmp_echo :
    let t := after .parseIcmp (inFlight 4 [0x08, 0x00, 0xf7, 0xff])
    t.results.read .valid = 0x10 ∧ t.results.read .icmpW0 = 0xF7FF0008 ∧
      t.results.read .icmpW1 = 5 := by decide

/-- L2.8 row 5: an unknown type is not an error. -/
theorem test_icmp_unknown :
    let t := after .parseIcmp (inFlight 4 [0x01, 0x05, 0x00, 0x00])
    statusWord t = 0x2 ∧ t.results.read .icmpW0 = 0x00000501 ∧ t.results.read .icmpW1 = 0 := by decide

/-- Program P2, whole frame. -/
theorem test_frame_p2 :
    let t := after .parseFrame (inFlight 60 p2Frame)
    statusWord t = 0x2 ∧ t.results.read .valid = 0x0B ∧ t.results.read .ethType = 0x00030800 ∧
      t.results.read .ethPayLen = 0x2E ∧ t.results.read .ipW0 = 0x00001404 ∧
      t.results.read .ipW1 = 0x12340020 ∧ t.results.read .ipW2 = 0x00020000 ∧
      t.results.read .ipW3 = 0xA7451140 ∧ t.results.read .ipW4 = 0x00000004 ∧
      t.results.read .ipPayOff = 0x22 ∧ t.results.read .ipPayLen = 0x0C ∧
      t.results.read .udpPorts = 0x04D2162E ∧ t.results.read .udpLenCsum = 0x000C0000 ∧
      t.results.read .udpPayOff = 0x2A ∧ t.results.read .udpPayLen = 4 ∧ t.results.tcp = .zero := by
  decide

/-- Program P4: a truncated IPv4 header discards the Ethernet results too. -/
theorem test_frame_p4 :
    let t := after .parseFrame (inFlight 24 p2Frame)
    statusWord t = 0x00000212 ∧ t.results = .zero ∧ t.inLen = 24 := by decide

/-- L2.1: ARP. -/
theorem test_classify_etype_arp :
    let t := after .classifyEtype (classifying 0x0806)
    statusWord t = 0x2 ∧ t.results.read .valid = 0x20 ∧ t.results.read .classRes = 4 := by decide

/-- L2.1: both ends of the UNDEFINED band, and the vectors marked "(default table)". -/
theorem test_classify_etype_bands :
    classifyEtherType defaultEtypeTable 1500 = 1 ∧ classifyEtherType defaultEtypeTable 1501 = 2 ∧
      classifyEtherType defaultEtypeTable 1535 = 2 ∧ classifyEtherType defaultEtypeTable 1536 = 0 ∧
      classifyEtherType defaultEtypeTable 0x8847 = 7 ∧
      classifyEtherType defaultEtypeTable 0x88F7 = 12 ∧
      classifyEtherType defaultEtypeTable 0xFFFF = 0 := by decide

/-- The default table meets 41_ethertype R85, at its entries. -/
theorem test_default_table_legal :
    Config.restrictEtypeTable defaultEtypeTable 0x8863 = some 9 ∧
      Config.restrictEtypeTable defaultEtypeTable 0x88CC = some 11 := by decide

/-- L2.2, last row: bits 15:8 are ignored. -/
theorem test_classify_ipproto_tcp :
    (after .classifyIpproto (classifying 0x0106)).results.read .classRes = 3 := by decide

/-- L2.2: SCTP, and UNKNOWN at 255. -/
theorem test_classify_ipproto_table : classifyIpProto 0x84 = 7 ∧ classifyIpProto 0xFF = 0 := by decide

/-- L2.3: Traceroute. -/
theorem test_classify_icmptype_traceroute :
    (after .classifyIcmptype (classifying 0x1E)).results.read .classRes = 0x10 := by decide

/-- L2.3: the table's ends. -/
theorem test_classify_icmptype_table :
    classifyIcmpType 0 = 1 ∧ classifyIcmpType 43 = 18 ∧ classifyIcmpType 44 = 0 := by decide

/-! ### Command words, windows and host accesses (95_test_vectors L2.10) -/

theorem test_illegal_word :
    statusWord (stepped { inFlight 0 [] with lop := 0x11 }) = 0x00000742 := by decide

/-- `wr IN_OFF, 0xFFFFFFFF; wr IN_LEN, 1; cmd PARSE_UDP`: the sum does not wrap. -/
theorem test_window_no_wrap :
    statusWord (after .parseUdp { inFlight 1 [] with loff := 0xFFFFFFFF }) = 0x00000732 := by
  have h : exceedsBuffer (4294967295 + 1) = true := by
    rw [exceedsBuffer_iff]; have := bufSize_le; omega
  simp [after, exec, execParseUdp, onWindow, inFlight, toReg, h]
  decide

theorem test_read_status_8 :
    let t := hostRead 0x0004 .w8 State.reset
    t.rdata = 0 ∧ t.accErr = true := by decide

theorem test_write_unmapped :
    hostWrite 0x0024 .w32 5 State.reset = accessError State.reset := by decide

theorem test_write_misaligned :
    hostWrite 0x1002 .w32 5 State.reset = accessError State.reset := by decide

theorem test_write_status_clears :
    (hostWrite 0x0004 .w32 0x00040000 (accessError State.reset)).accErr = false := by decide

theorem test_write_class_arg :
    readReg (hostWrite 0x0014 .w32 0xFFFF0800 State.reset) .classArg = 0x00000800 := by decide

/-- `HostWrite(0x1000, 32, 0x44332211)`: bytes and the engine's view. -/
theorem test_word_packing :
    let t := hostWrite 0x1000 .w32 0x44332211 State.reset
    byteAt t 0 = 0x11 ∧ byteAt t 3 = 0x44 ∧ memRead16 (byteAt t) 0 = 0x1122 ∧
      bufWordAt t 0 = 0x44332211 ∧ t.buf.wf := by
  refine ⟨by decide, by decide, by decide, by decide, ?_⟩
  exact writeBufWord_wf (s := State.reset) 0 _ (by have := bufSize_ge; omega) Memory.nil_wf

/-- Program P5, first end state: the second `CMD` write meets the first command still BUSY. -/
theorem test_overlap_dropped :
    let t := stepped { inFlight 14 [] with lop := 1, agenda := hostProgram [(false, .cmd .parseFrame)] }
    t.eng = .busy ∧ t.cmdIgnored = true ∧ t.lop = 1 ∧ t.agenda = [] := by decide

/-- Program P5, second end state: the first command commits before the second `CMD` write. -/
theorem test_overlap_commits_first :
    let t := stepped { classifying 0 with lop := 8, agenda := hostProgram [(true, .cmd .parseFrame)] }
    t.eng = .idle ∧ statusWord t = 0x2 ∧ t.agenda ≠ [] := by decide

/-! ### The fetch interface -/

theorem test_fetch_runs_first :
    stepped (State.reset.withFetchWord 32 1) = after .parseEth (State.reset.withFetchWord 32 1) := by
  decide

theorem test_fetch_classifies :
    (stepped (State.reset.withFetchWord 32 8)).results.read .classRes = 1 := by decide

/-! ### Witnesses

A concrete state and operands that meet the hypotheses of each statement of
Sys2Proof/Certificates/Slice0/Obligations.lean, one for each clause, at the ends of its range. -/

/-- The Ethernet header of an IPv4 frame, an IPv4 header with this protocol byte and total length, and
what follows. -/
def ipFrame (proto tl : Byte) (rest : List Byte) : List Byte :=
  macBytes ++ [0x08, 0x00] ++
  [0x45, 0x00, 0x00, tl, 0x00, 0x00, 0x00, 0x00, 0x40, proto, 0x00, 0x00, 0x0a, 0x00, 0x00, 0x01,
   0x0a, 0x00, 0x00, 0x02] ++ rest

/-- A frame's Ethernet group, if it decodes. -/
def ethOf (s : State) : Option EthGroup :=
  match parseEth (byteAt s) s.loff.toNat s.llen.toNat with
  | .ok e => some e
  | .err _ _ => none

/-- The outcome of the IPv4 layer of a frame in flight, if its Ethernet layer decodes. -/
def ipOf (s : State) : Option (Parsed IpGroup) :=
  (ethOf s).map fun e => parseIpv4 (byteAt s) e.payOff.toNat e.payLen.toNat

/-- The window and the IPv4 group of a frame in flight, if both layers decode. -/
def ipGroupOf (s : State) : Option IpGroup :=
  match ipOf s with
  | some (.ok i) => some i
  | _ => none

theorem fits_inFlight (n : Nat) (bytes : List Byte) (h : n ≤ 1524) : WindowFits (inFlight n bytes) := by
  have h1 := bufSize_ge
  have h2 : (toReg n).toNat = n := by simp only [toReg, BitVec.toNat_ofNat]; omega
  change 0 + (toReg n).toNat ≤ Config.bufSize
  omega

theorem witness_window_exceeds : ¬WindowFits { inFlight 1 [] with loff := 0xFFFFFFFF } := by
  have := bufSize_le
  simp [WindowFits, inFlight, toReg]; omega

theorem witness_EveryWord_idle : State.reset.eng = .idle ∧ State.reset.rst = false := by decide

theorem witness_EveryWord_command : ∀ w ∈ [1#32, 6#32, 8#32, 10#32], w.toNat / 16 = 0 ∧
    (1 ≤ w.toNat % 16 ∧ w.toNat % 16 ≤ 6 ∨ 8 ≤ w.toNat % 16 ∧ w.toNat % 16 ≤ 10) := by simp

theorem witness_EveryWord_illegal : ∀ w ∈ [0#32, 7#32, 11#32, 17#32, 0xFFFFFFFF#32],
    ¬(w.toNat / 16 = 0 ∧
      (1 ≤ w.toNat % 16 ∧ w.toNat % 16 ≤ 6 ∨ 8 ≤ w.toNat % 16 ∧ w.toNat % 16 ≤ 10)) ∧
    engineTurn { inFlight 0 [] with lop := w } = true := by
  simp [engineTurn, inFlight, State.busy, State.reset]

theorem witness_IllegalCommand :
    (0x10#32).extractLsb' 4 28 ≠ 0 ∧ (0x0#32).extractLsb' 0 4 = 0x0#4 ∧
      (0x7#32).extractLsb' 0 4 = 0x7#4 ∧ 0xB ≤ ((0xB#32).extractLsb' 0 4).toNat := by decide

theorem witness_Acceptance : State.reset.eng = .idle ∧ State.reset.rst = false := by decide

theorem witness_CommandWriteWhileBusy : (inFlight 0 []).eng = .busy ∧ (inFlight 0 []).rst = false := by
  decide

theorem witness_StepRunsDecodedCommand :
    let s := { inFlight 14 [] with lop := 1 }
    engineTurn s = true ∧ decode s.lop = .command .parseEth := by decide

theorem witness_PresentedWordRunsNext : decodeTableWord 32 0x6 = some .parseFrame := by decide

theorem witness_StepPerformsNextInput :
    let s := { inFlight 0 [] with agenda := [⟨false, .access (.read 0x0004 .w32)⟩] }
    engineTurn s = false ∧ s.agenda = ⟨false, .access (.read 0x0004 .w32)⟩ :: [] ∧
      State.reset.eng = .idle ∧ State.reset.agenda = [] := by decide

/-- A command in flight whose agenda does not assert `rst`. -/
theorem witness_BusyCommandCompletes :
    let s := { inFlight 0 [] with agenda := hostProgram [(false, .wait 2), (true, .rd .valid)] }
    s.eng = .busy ∧ ∀ e ∈ s.agenda, e.action ≠ .rst true := by decide

/-- From IDLE to BUSY by a `CMD` write, and back by the engine's move and by reset. -/
theorem witness_EngineChanges :
    let s := { State.reset with agenda := hostProgram [(false, .cmd .parseUdp)] }
    let r := { inFlight 0 [] with agenda := [⟨false, .rst true⟩] }
    s.eng = .idle ∧ step s = .next (stepped s) ∧ (stepped s).eng = .busy ∧
      step (stepped s) = .next (stepped (stepped s)) ∧ (stepped (stepped s)).eng = .idle ∧
      r.eng = .busy ∧ step r = .next (stepped r) ∧ (stepped r).eng = .idle := by
  refine ⟨rfl, rfl, rfl, rfl, rfl, rfl, rfl, rfl⟩

theorem witness_exec_next (i : Instr) : exec i (inFlight 0 []) = .next (after i (inFlight 0 [])) := by
  cases i <;> rfl

theorem witness_FailedCommand :
    let s := { inFlight 0 [] with lop := 7, irqEn := true }
    engineMove s = .next (commitIllegal s) ∧ (commitIllegal s).err ≠ 0 ∧ s.irqEn = true := by
  refine ⟨rfl, by decide, rfl⟩

theorem witness_UnfilledGroups : (after .parseIcmp (inFlight 3 [])).err ≠ 0 := by decide

/-! Windows at the ends of each clause of the parse commands. -/

theorem witness_ParseEth_short :
    WindowFits (inFlight 13 []) ∧ (inFlight 13 []).llen.toNat < 14 :=
  ⟨fits_inFlight _ _ (by decide), by decide⟩

theorem witness_ParseEth_tagged :
    ∀ n ∈ [14, 17, 18], WindowFits (inFlight n (macBytes ++ [0x81, 0x00])) ∧
      14 ≤ (inFlight n (macBytes ++ [0x81, 0x00])).llen.toNat ∧
      ((inFlight n (macBytes ++ [0x81, 0x00])).llen.toNat < 18 ↔ n ≠ 18) ∧
      byteAt (inFlight n (macBytes ++ [0x81, 0x00])) 12 = 0x81#8 ∧
      byteAt (inFlight n (macBytes ++ [0x81, 0x00])) 13 = 0x00#8 := by
  intro n hn
  refine ⟨fits_inFlight _ _ ?_, ?_⟩
  · revert n; decide
  · revert n; decide

theorem witness_ParseEth_untagged :
    WindowFits (inFlight 14 (macBytes ++ [0x81, 0x01])) ∧
      14 ≤ (inFlight 14 (macBytes ++ [0x81, 0x01])).llen.toNat ∧
      ¬(byteAt (inFlight 14 (macBytes ++ [0x81, 0x01])) 12 = 0x81#8 ∧
        byteAt (inFlight 14 (macBytes ++ [0x81, 0x01])) 13 = 0x00#8) :=
  ⟨fits_inFlight _ _ (by decide), by decide, by decide⟩

/-- Window length, first byte and total length, and the `ihl` and `tl` that the statement computes: a
short window; IHL 4; a header cut by one byte; a total length below the header; one above the window;
the least and the greatest header that decode. -/
theorem witness_ParseIpv4 :
    ∀ x ∈ [(19, 0x45#8, 20#8), (20, 0x44#8, 20#8), (23, 0x46#8, 24#8), (20, 0x45#8, 19#8),
        (20, 0x45#8, 21#8), (20, 0x45#8, 20#8), (60, 0x4F#8, 60#8)],
      let s := inFlight x.1 (ipBytes x.2.1 x.2.2)
      WindowFits s ∧ s.llen.toNat = x.1 ∧ s.loff.toNat = 0 ∧ byteAt s 0 = x.2.1 ∧ byteAt s 2 = 0 ∧
        byteAt s 3 = x.2.2 := by
  intro x hx
  refine ⟨fits_inFlight _ _ ?_, ?_⟩
  · revert x; decide
  · revert x; decide

/-- Window length and byte 12: short; DOFF 4; a header cut by one byte; the least and the greatest
header that decode. -/
theorem witness_ParseTcp :
    ∀ x ∈ [(19, 0x50#8), (20, 0x40#8), (23, 0x60#8), (20, 0x50#8), (60, 0xf0#8)],
      let s := inFlight x.1 (tcpBytes x.2 0)
      WindowFits s ∧ s.llen.toNat = x.1 ∧ s.loff.toNat = 0 ∧ byteAt s 12 = x.2 := by
  intro x hx
  refine ⟨fits_inFlight _ _ ?_, ?_⟩
  · revert x; decide
  · revert x; decide

/-- The lengths at which PARSE_UDP and PARSE_ICMP turn from an error to success. -/
theorem witness_ParseUdp_ParseIcmp :
    ∀ n ∈ [7, 8, 3, 4], WindowFits (inFlight n []) ∧ (inFlight n []).llen.toNat = n := by
  intro n hn
  refine ⟨fits_inFlight _ _ ?_, ?_⟩
  · revert n; decide
  · revert n; decide

/-! Frames for each branch of PARSE_FRAME. -/

theorem witness_ParseFrame_eth_error :
    WindowFits (inFlight 13 []) ∧
      parseEth (byteAt (inFlight 13 [])) 0 13 = .err .truncatedHeader .eth :=
  ⟨fits_inFlight _ _ (by decide), by decide⟩

theorem witness_ParseFrame_not_ip :
    let s := inFlight 14 (macBytes ++ [0x08, 0x06])
    WindowFits s ∧ (ethOf s).map (·.etypeClass) = some 4 :=
  ⟨fits_inFlight _ _ (by decide), by decide⟩

theorem witness_ParseFrame_ip_error :
    let s := inFlight 33 (ipFrame 6 20 [])
    WindowFits s ∧ (ethOf s).map (·.etypeClass) = some 3 ∧
      ipOf s = some (.err .truncatedHeader .ipv4) :=
  ⟨fits_inFlight _ _ (by decide), by decide, by decide⟩

/-- Protocol byte and total length of a frame with 40 bytes of IPv4 packet at the most, and the class:
each transport with one byte less than its header needs, then with just enough, and OSPF. -/
theorem witness_ParseFrame_transport :
    ∀ x ∈ [(1#8, 23#8, 1#4, 3), (1#8, 24#8, 1#4, 4), (6#8, 39#8, 3#4, 19), (6#8, 40#8, 3#4, 20),
        (17#8, 27#8, 4#4, 7), (17#8, 28#8, 4#4, 8), (89#8, 20#8, 6#4, 0)],
      let s := inFlight 54 (ipFrame x.1 x.2.1 (tcpBytes 0x50 0))
      WindowFits s ∧ (ethOf s).map (·.etypeClass) = some 3 ∧
        (ipGroupOf s).map (fun i => (i.protoClass, i.payOff.toNat, i.payLen.toNat)) =
          some (x.2.2.1, 34, x.2.2.2) := by
  intro x hx
  refine ⟨fits_inFlight _ _ (by decide), ?_⟩
  revert x; decide

/-- The transport parsers on those payloads: an error, then success. -/
theorem witness_ParseFrame_transport_outcomes :
    let B := fun (proto tl : Byte) => byteAt (inFlight 54 (ipFrame proto tl (tcpBytes 0x50 0)))
    parseIcmp (B 1 23) 34 3 = .err .truncatedHeader .icmp ∧
    parseIcmp (B 1 24) 34 4 = .ok (icmpRecord (B 1 24) 34) ∧
    parseTcp (B 6 39) 34 19 = .err .truncatedHeader .tcp ∧
    parseTcp (B 6 40) 34 20 = .ok (tcpRecord (B 6 40) 34 20) ∧
    parseUdp (B 17 27) 34 7 = .err .truncatedHeader .udp ∧
    parseUdp (B 17 28) 34 8 = .ok (udpRecord (B 17 28) 34 8) := by
  refine ⟨by decide, by decide, by decide, by decide, by decide, by decide⟩

/-- The states of the chain of 47_pipeline R113 on a UDP frame. -/
theorem witness_FrameAgreesWithHostChaining_udp :
    let s := inFlight 54 (ipFrame 17 28 (tcpBytes 0x50 0))
    let t1 := after .parseEth s
    let t2 := after .parseIpv4
      (hostCommand .parseIpv4 t1.results.eth.payOff t1.results.eth.payLen t1)
    let t3 := after .parseUdp (hostCommand .parseUdp t2.results.ip.payOff t2.results.ip.payLen t2)
    s.rst = false ∧ t1.err = 0 ∧ t1.results.eth.etypeClass = 3 ∧ t2.err = 0 ∧
      t2.results.ip.protoClass = 4 ∧ t3.err = 0 := by decide

/-- The chain's other branches: no Ethernet header, ARP, a cut IPv4 header, and the protocol classes of
ICMP, TCP and OSPF, with transport errors. -/
theorem witness_FrameAgreesWithHostChaining_branches :
    let net := fun (n : Nat) (bytes : List Byte) =>
      let t1 := after .parseEth (inFlight n bytes)
      after .parseIpv4 (hostCommand .parseIpv4 t1.results.eth.payOff t1.results.eth.payLen t1)
    let next := fun (i : Instr) (t2 : State) =>
      after i (hostCommand i t2.results.ip.payOff t2.results.ip.payLen t2)
    (after .parseEth (inFlight 13 [])).err ≠ 0 ∧
    (after .parseEth (inFlight 14 (macBytes ++ [0x08, 0x06]))).results.eth.etypeClass ≠ 3 ∧
    (net 33 (ipFrame 6 20 [])).err ≠ 0 ∧
    (net 54 (ipFrame 1 23 [])).results.ip.protoClass = 1 ∧
    (next .parseIcmp (net 54 (ipFrame 1 23 []))).err ≠ 0 ∧
    (next .parseIcmp (net 54 (ipFrame 1 24 []))).err = 0 ∧
    (net 54 (ipFrame 6 39 [])).results.ip.protoClass = 3 ∧
    (next .parseTcp (net 54 (ipFrame 6 39 []))).err ≠ 0 ∧
    (next .parseTcp (net 54 (ipFrame 6 40 (tcpBytes 0x50 0)))).err = 0 ∧
    (next .parseUdp (net 54 (ipFrame 17 27 []))).err ≠ 0 ∧
    (net 54 (ipFrame 89 20 [])).results.ip.protoClass = 6 := by
  refine ⟨by decide, by decide, by decide, by decide, by decide, by decide, by decide, by decide,
    by decide, by decide, by decide⟩

/-- The ends of the ranges of CLASSIFY_ETYPE's clauses. -/
theorem witness_ClassifyEtype :
    (classifying 1500).larg.toNat ≤ 1500 ∧
    (∀ v ∈ [1501#16, 1535#16], 1501 ≤ (classifying v).larg.toNat ∧
      (classifying v).larg.toNat ≤ 1535) ∧
    (classifying 0x0800).larg = 0x0800 ∧ (classifying 0x0806).larg = 0x0806 ∧
    (classifying 0x8100).larg = 0x8100 ∧ (classifying 0x86DD).larg = 0x86DD ∧
    (∀ v ∈ [1536#16, 0xFFFF#16], 1536 ≤ (classifying v).larg.toNat ∧
      (classifying v).larg ≠ 0x0800 ∧ (classifying v).larg ≠ 0x0806 ∧
      (classifying v).larg ≠ 0x8100 ∧ (classifying v).larg ≠ 0x86DD) := by simp [classifying]

/-- An entry of a table cut to its domain; that a legal table is one is witnessed by the empty one. -/
theorem witness_EtypeTable :
    Config.restrictEtypeTable defaultEtypeTable 0x88F7 = some 12 ∧
      ∀ v c, (fun _ => none : Config.EtypeTable) v = some c → 1536 ≤ v.toNat := by
  refine ⟨by decide, fun v c h => by cases h⟩

/-- Two states that differ outside the window only. -/
theorem witness_OutcomeDependsOnWindowOnly :
    let s := inFlight 4 [8, 0, 0, 0]
    let s' := inFlight 4 [8, 0, 0, 0, 9]
    s ≠ s' ∧ s'.loff = s.loff ∧ s'.llen = s.llen ∧ s'.larg = s.larg ∧ SameWindowBytes s s' := by
  refine ⟨by decide, rfl, rfl, rfl, fun a _ h => ?_⟩
  have h4 : a < 4 := h
  have : a = 0 ∨ a = 1 ∨ a = 2 ∨ a = 3 := by omega
  rcases this with rfl | rfl | rfl | rfl <;> rfl

theorem witness_DescriptorsStayInWindow :
    (after .parseEth (inFlight 14 (macBytes ++ [0x08, 0x00]))).results.valid.eth = true ∧
    (after .parseIpv4 (inFlight 60 (ipBytes 0x4F 60))).results.valid.ip = true ∧
    (after .parseIpv4 (inFlight 60 (ipBytes 0x4F 60))).results.ip.optPresent = true ∧
    (after .parseIpv4 (inFlight 20 (ipBytes 0x45 20))).results.valid.ip = true ∧
    (after .parseIpv4 (inFlight 20 (ipBytes 0x45 20))).results.ip.optPresent = false ∧
    (after .parseTcp (inFlight 60 (tcpBytes 0xf0 0))).results.valid.tcp = true ∧
    (after .parseUdp (inFlight 8 [])).results.valid.udp = true := by
  refine ⟨by decide, by decide, by decide, by decide, by decide, by decide, by decide⟩

theorem witness_AddressMapReads : State.reset.rst = false ∧ State.reset.eng = .idle := by decide

theorem witness_RegisterWrites : ∀ a ∈ [0x0018#16, 0x0124#16],
    a.toNat % 4 = 0 ∧ RegisterRow a.toNat ∧ 0x0018 ≤ a.toNat := by
  simp [RegisterRow]

theorem witness_BusyResultReads :
    Reg.isResult .classRes = true ∧ Reg.isResult .icmpW1 = true ∧ (inFlight 0 []).rst = false ∧
      (inFlight 0 []).eng = .busy ∧ State.reset.eng = .idle := by decide

/-- The first and the last byte, the first and the last word, and misaligned words at both ends of the
buffer. -/
theorem witness_Buffer :
    0 < Config.bufSize ∧ (Config.bufSize - 1) % 4 ≠ 0 ∧ Config.bufSize - 1 < Config.bufSize ∧
      0 + 3 < Config.bufSize ∧
      Config.bufSize - 4 + 3 < Config.bufSize ∧ (Config.bufSize - 4) % 4 = 0 ∧
      1 + 3 < Config.bufSize ∧ 1 % 4 ≠ 0 ∧ State.reset.rst = false ∧ State.reset.eng = .idle ∧
      (inFlight 0 []).eng = .busy := by
  have h1 := bufSize_ge
  have h2 := bufSize_mod
  refine ⟨by omega, by omega, by omega, by omega, by omega, by omega, by omega, by omega, rfl, rfl, rfl⟩

/-- Illegal accesses at the edges of the map, and legal ones. -/
theorem witness_IllegalAccess :
    ¬LegalAccess 0x0024 .w32 ∧ ¬LegalAccess 0x0128 .w32 ∧ ¬LegalAccess 0x0FFF .w8 ∧
      ¬LegalAccess 0x1002 .w32 ∧ ¬LegalAccess 0x0004 .w8 ∧ ¬LegalAccess 0x1000 .w16 ∧
      LegalAccess 0x0020 .w32 ∧ LegalAccess 0x0124 .w32 ∧ LegalAccess 0x1000 .w8 ∧
      LegalAccess 0x1000 .w32 := by
  have h := bufSize_ge
  simp [LegalAccess, RegisterRow, BufferRow]; omega

theorem witness_WritesWhileBusy :
    (inFlight 0 []).eng = .busy ∧ (inFlight 0 []).rst = false ∧ LegalAccess 0x1000 .w8 ∧
      BufferRow (0x1000#16).toNat ∧ LegalAccess 0x000C .w32 ∧ LegalAccess 0x0010 .w32 ∧
      LegalAccess 0x0014 .w32 ∧ 1523 < Config.bufSize := by
  have h := bufSize_ge
  refine ⟨rfl, rfl, ?_⟩
  simp [LegalAccess, RegisterRow, BufferRow]; omega

theorem witness_ReadsHaveNoSideEffect :
    LegalAccess 0x0004 .w32 ∧ (enterReset State.reset).rst = true := by
  simp [LegalAccess, RegisterRow]

/-- A buffer write in the middle of a command: the step is taken, and nothing resets. -/
theorem witness_InputsStableWhileBusy :
    let s := { inFlight 14 [] with agenda := hostProgram [(false, .wrw 0 5)] }
    s.eng = .busy ∧ step s = .next (stepped s) ∧ ¬(s.rst = false ∧ (stepped s).rst = true) ∧
      engineTurn s = false ∧ (stepped s).writeIgnored = true := by
  refine ⟨rfl, rfl, by decide, rfl, rfl⟩

/-- A step before the commit, and one with no command, neither of which resets. -/
theorem witness_ResultsChangeOnlyAtCommit :
    let b := { inFlight 14 [] with agenda := hostProgram [(false, .rd .status)] }
    step b = .next (stepped b) ∧ engineTurn b = false ∧ ¬(b.rst = false ∧ (stepped b).rst = true) ∧
      step State.reset = .next (stepped State.reset) ∧ engineTurn State.reset = false ∧
      ¬(State.reset.rst = false ∧ (stepped State.reset).rst = true) := by
  refine ⟨rfl, rfl, by decide, rfl, rfl, by decide⟩

/-- Each sticky bit, cleared by a `STATUS` write. -/
theorem witness_StickyBits :
    let s := { State.reset with
      cmdIgnored := true, writeIgnored := true, accErr := true
      agenda := hostProgram [(false, .wr .status 0x00070000)] }
    step s = .next (stepped s) ∧ ¬(s.rst = false ∧ (stepped s).rst = true) ∧
      (stepped s).cmdIgnored = false ∧ (stepped s).writeIgnored = false ∧
      (stepped s).accErr = false := by
  refine ⟨rfl, by decide, rfl, rfl, rfl⟩

/-- DONE cleared by a `STATUS` write, and DONE and an error cleared by acceptance. -/
theorem witness_ErrorAndDone :
    let d := { State.reset with done := true, agenda := hostProgram [(false, .wr .status 2)] }
    let e := { State.reset with
      done := true, err := 1, errLayer := 4, agenda := hostProgram [(false, .cmd .parseUdp)] }
    step d = .next (stepped d) ∧ ¬(d.rst = false ∧ (stepped d).rst = true) ∧ d.done = true ∧
      (stepped d).done = false ∧
      step e = .next (stepped e) ∧ ¬(e.rst = false ∧ (stepped e).rst = true) ∧ e.done = true ∧
      (stepped e).done = false ∧ (stepped e).err ≠ e.err ∧ (stepped e).errLayer ≠ e.errLayer := by
  refine ⟨rfl, by decide, rfl, rfl, rfl, by decide, rfl, rfl, by decide, by decide⟩

theorem witness_IrqFollowsCompletion :
    irq (after .parseUdp { inFlight 8 [] with irqEn := true }) = true := by decide

/-- `irq` raised by a commit, and by enabling it with a completion pending. -/
theorem witness_IrqRises :
    let c := { inFlight 0 [] with lop := 1, irqEn := true }
    let e := { State.reset with done := true, agenda := hostProgram [(false, .wr .ctrl 1)] }
    step c = .next (stepped c) ∧ irq c = false ∧ irq (stepped c) = true ∧
      step e = .next (stepped e) ∧ irq e = false ∧ irq (stepped e) = true := by
  refine ⟨rfl, rfl, rfl, rfl, rfl, rfl⟩

theorem witness_NoStaleCompletion :
    let t := hostWrite 0x0000#16 .w32 0 State.reset
    State.reset.eng = .idle ∧ State.reset.rst = false ∧ engineMove t = .next (commitIllegal t) := by
  refine ⟨rfl, rfl, rfl⟩

/-- A `wait` that finds BUSY, and one that finds the engine IDLE. -/
theorem witness_WaitEndsWhenIdle :
    let b := { inFlight 0 [] with agenda := hostProgram [(false, .wait 1)] }
    let i := { State.reset with agenda := hostProgram [(false, .wait 0)] }
    b.agenda = ⟨false, .wait 1⟩ :: [] ∧ engineTurn b = false ∧ b.rst = false ∧
      step b = .next (stepped b) ∧ b.eng = .busy ∧ (stepped b).agenda = ⟨false, .wait 0⟩ :: [] ∧
      i.agenda = ⟨false, .wait 0⟩ :: [] ∧ engineTurn i = false ∧ i.rst = false ∧
      step i = .next (stepped i) ∧ i.eng = .idle ∧ (stepped i).agenda = [] := by
  refine ⟨rfl, rfl, rfl, rfl, rfl, by decide, rfl, rfl, rfl, rfl, rfl, by decide⟩

/-- A byte of a `wrb`, at the last host address before the wrap of log entry 20. -/
theorem witness_HostNotation :
    ([0x02, 0x81] : List Byte)[1]? = some 0x81 ∧ (busAddr (0x1000 + 0xEFFE + 1)).toNat = 0xFFFF := by
  simp [busAddr]

theorem witness_ResetAbandonsCommand :
    let s := { inFlight 14 [] with agenda := [⟨false, .rst true⟩] }
    s.rst = false ∧ s.eng = .busy ∧ step s = .next (stepped s) ∧ (stepped s).eng = .idle := by
  refine ⟨rfl, rfl, rfl, rfl⟩

/-- A state with a command in flight meets the invariant, and steps. -/
theorem witness_StepKeepsInvariant :
    Invariant (accept 1 State.reset) ∧
      step (accept 1 State.reset) = .next (stepped (accept 1 State.reset)) := by
  refine ⟨⟨⟨?_, fun _ => ⟨rfl, rfl, rfl⟩, fun _ => ⟨rfl, rfl, rfl⟩, ?_, ?_⟩,
    ⟨?_, zero_zeroUnlessValid, ?_, ?_, ?_, ?_, ?_, ?_⟩, Memory.nil_wf⟩, rfl⟩
  all_goals first | decide | exact fun h => absurd h (by decide)

end Sys2Proof.Tests
end

/-! The statements about the registers and the engine state (10_state.md): where the fields of a register
stand, what a host access to a register does, and which steps change the engine and the results. -/

namespace Sys2Proof.Machine

/-! ### Slices of a register that fields were placed in

A register is the `|||` of its fields, and reading a slice distributes over `|||`. Of each field the slice
is the field itself, or it lies wholly above or below the field and reads 0. -/

/-- A slice that lies wholly below or above a field is 0. -/
theorem extract_place_outside {w lo l n : Nat} (x : BitVec w) (h : l + n ≤ lo ∨ lo + w ≤ l) :
    (place x lo).extractLsb' l n = 0#n :=
  h.elim (extract_place_below x) (extract_place_above x)

theorem extract_flag_outside {lo l n : Nat} (b : Bool) (h : l + n ≤ lo ∨ lo + 1 ≤ l) :
    (flag b lo).extractLsb' l n = 0#n := extract_place_outside _ h

/-- A bit below or above a field is 0. -/
theorem getLsbD_place_outside {w lo i : Nat} (x : BitVec w) (h : i < lo ∨ lo + w ≤ i) :
    (place x lo).getLsbD i = false := by
  rw [getLsbD_place]
  rcases h with h | h
  · simp [Nat.not_le.2 h]
  · simp [BitVec.getLsbD_of_ge x (i - lo) (by omega)]

theorem getLsbD_flag_outside {lo i : Nat} (b : Bool) (h : i < lo ∨ lo + 1 ≤ i) :
    (flag b lo).getLsbD i = false := getLsbD_place_outside _ h

/-- A one-bit field is read back. -/
theorem getLsbD_flag_same {lo : Nat} (b : Bool) (h : lo < 32) : (flag b lo).getLsbD lo = b := by
  rw [getLsbD_flag, decide_eq_true h, decide_eq_true rfl, Bool.true_and, Bool.true_and]

/-- The layout of `VALID` (10_state R20). -/
theorem validWord_layout (v : Valid) :
    v.word.getLsbD 0 = v.eth ∧ v.word.getLsbD 1 = v.ip ∧ v.word.getLsbD 2 = v.tcp ∧
    v.word.getLsbD 3 = v.udp ∧ v.word.getLsbD 4 = v.icmp ∧ v.word.getLsbD 5 = v.cls ∧
    v.word.extractLsb' 6 26 = 0 := by
  simp (disch := omega) only [Valid.word, BitVec.getLsbD_or, getLsbD_flag_same, getLsbD_flag_outside,
    extract_or, extract_flag_outside, Bool.or_false, Bool.false_or, BitVec.or_zero,
    BitVec.ofNat_eq_ofNat, and_self]

/-- Settles O31: BUSY is the model's own law of `STATUS`; every other slice holds one field or none. -/
theorem statusLayout : Obligations.StatusLayout := by
  refine ⟨fun s => ⟨?_, ?_⟩, validWord_layout⟩
  · rw [statusWord_busy, State.busy]; rfl
  · simp (disch := omega) only [statusWord, ctrlWord, BitVec.getLsbD_or, getLsbD_flag_same,
      getLsbD_flag_outside, getLsbD_place_outside, extract_or, extract_place_same,
      extract_place_outside, extract_flag_outside, Bool.or_false, Bool.false_or, BitVec.or_zero,
      BitVec.zero_or, BitVec.ofNat_eq_ofNat, and_self]

/-- Settles O32: each slice the tables name holds one whole field, and each other slice none. -/
theorem ethIpRegisterLayout : Obligations.EthIpRegisterLayout := by
  intro x
  simp (disch := omega) only [Results.read, BitVec.getLsbD_or, getLsbD_flag_same,
    getLsbD_place_outside, extract_or, extract_place_same, extract_place_outside,
    extract_flag_outside, Bool.or_false, Bool.false_or, BitVec.or_zero, BitVec.zero_or,
    BitVec.ofNat_eq_ofNat, and_self]

/-- Settles O33: each slice the tables name holds one whole field, and each other slice none. -/
theorem transportRegisterLayout : Obligations.TransportRegisterLayout := by
  intro x
  simp (disch := omega) only [Results.read, BitVec.getLsbD_or, getLsbD_flag_same,
    getLsbD_place_outside, extract_or, extract_place_same, extract_place_outside,
    extract_flag_outside, Bool.or_false, Bool.false_or, BitVec.or_zero, BitVec.zero_or,
    BitVec.ofNat_eq_ofNat, and_self]

/-! ### Host accesses to a register -/

/-- With `rst` released, a 32-bit write at a register's address is that register's write. -/
theorem hostWrite_reg {addr : HostAddr} {r : Reg} {s : State} (v : Word) (hr : s.rst = false)
    (ha : addr.toNat = r.addr) : hostWrite addr .w32 v s = writeReg r v s := by
  simp [hostWrite, hr, target_reg ha]

/-- With `rst` released, a 32-bit read at a register's address is that register's read. -/
theorem hostRead_reg {addr : HostAddr} {r : Reg} {s : State} (hr : s.rst = false)
    (ha : addr.toNat = r.addr) : hostRead addr .w32 s = readRegister r s := by
  simp [hostRead, hr, target_reg ha]

theorem unlessBusy_idle (f : State → State) {s : State} (h : s.eng = .idle) :
    unlessBusy f s = f s := by
  simp [unlessBusy, busy_of_idle h]

theorem writeCmd_idle (w : Word) {s : State} (h : s.eng = .idle) : writeCmd w s = accept w s := by
  simp [writeCmd, busy_of_idle h]

theorem writeCmd_busy (w : Word) {s : State} (h : s.eng = .busy) :
    writeCmd w s = { s with cmdIgnored := true } := by
  simp [writeCmd, busy_of_eng h]

/-- The registers from 0x0018 on are read-only: a write to one does nothing (10_state R12). -/
theorem writeReg_readOnly {r : Reg} (v : Word) (s : State) (h : 0x0018 ≤ r.addr) :
    writeReg r v s = s := by
  cases r with
  | cmd | status | ctrl | inOff | inLen | classArg => simp [Reg.addr] at h
  | _ => rfl

theorem readReg_result {r : Reg} (s : State) (h : r.isResult = true) :
    readReg s r = s.results.read r := by
  cases r with
  | cmd | status | ctrl | inOff | inLen | classArg | bufSz => cases h
  | _ => rfl

theorem readRegister_result_busy {r : Reg} {s : State} (h : r.isResult = true) (hb : s.eng = .busy) :
    readRegister r s = { s with rdata := Config.busyRead s.draws, draws := s.draws + 1 } := by
  simp [readRegister, h, busy_of_eng hb]

theorem readRegister_result_idle {r : Reg} {s : State} (h : r.isResult = true) (hi : s.eng = .idle) :
    readRegister r s = { s with rdata := s.results.read r } := by
  simp [readRegister, busy_of_idle hi, readReg_result s h, returnData]

/-- Settles O35: each address names one register, and that register's write is the one stated. -/
theorem registerWrites : Obligations.RegisterWrites := by
  intro v s hr
  refine ⟨hostWrite_reg (r := .ctrl) v hr rfl, fun hi => ⟨?_, ?_, ?_⟩, fun a h4 hrow h18 => ?_⟩
  · rw [hostWrite_reg (r := .inOff) v hr rfl, writeReg, unlessBusy_idle _ hi]
  · rw [hostWrite_reg (r := .inLen) v hr rfl, writeReg, unlessBusy_idle _ hi]
  · rw [hostWrite_reg (r := .classArg) v hr rfl, writeReg, unlessBusy_idle _ hi,
      BitVec.setWidth_eq_extractLsb' (by decide)]
  · obtain ⟨r, hreg⟩ := ofAddr_row h4 hrow
    have ha : r.addr = a.toNat := ofAddr_some hreg
    rw [hostWrite_reg v hr ha.symm, writeReg_readOnly v s (ha ▸ h18)]

/-- Settles O36: a read at a register's address is that register's read, in both engine states. -/
theorem busyResultReadsAreUnspecified : Obligations.BusyResultReadsAreUnspecified := by
  intro r s hres hr
  have hread : hostRead (busAddr r.addr) .w32 s = readRegister r s :=
    hostRead_reg hr (busAddr_toNat (by have := addr_lt r; omega))
  rw [hread]
  exact ⟨readRegister_result_busy hres, readRegister_result_idle hres⟩

/-- Settles O34: a field `b` and not the written bit `c` is 0 where `c` is 1 and `b` where it is 0. -/
theorem statusWriteClearsStickyBits : Obligations.StatusWriteClearsStickyBits := by
  intro v s hr
  have w1c (b c : Bool) : (b && !c) = if c then false else b := by cases c <;> simp
  rw [hostWrite_reg (r := .status) v hr rfl, writeReg, writeStatus]
  simp only [w1c]

/-- Settles O48: the engine's move is a commit, which sets DONE and keeps IRQ_EN; each of the three
register writes clears one of the two. -/
theorem irqFollowsCompletion : Obligations.IrqFollowsCompletion := by
  refine ⟨fun _ => rfl, rfl, fun s t h => ?_, fun s hr => ?_, fun s hr => ?_, fun w s hr hi => ?_⟩
  · obtain ⟨r, hm⟩ := engineMove_eq s
    obtain rfl : commit r s = t := Host.Outcome.next.inj (hm.symm.trans h)
    rw [irq, commit_done, commit_irqEn, Bool.true_and]
  · rw [hostWrite_reg (r := .status) _ hr rfl]
    simp [irq, writeReg, writeStatus]
  · rw [hostWrite_reg (r := .ctrl) _ hr rfl]
    simp [irq, writeReg]
  · rw [hostWrite_reg (r := .cmd) _ hr rfl, writeReg, writeCmd_idle w hi, irq, accept_done,
      Bool.false_and]

/-! ### What the outside world's moves do to the engine and the result registers -/

theorem Stored.eng {addr : HostAddr} {w : Width} {v : Word} {s t : State} (h : Stored addr w v s t) :
    t.eng = s.eng := by
  cases h <;> simp

theorem Stored.results {addr : HostAddr} {w : Width} {v : Word} {s t : State}
    (h : Stored addr w v s t) : t.results = s.results := by
  cases h <;> simp

@[simp] theorem writeCmd_results (w : Word) (s : State) : (writeCmd w s).results = s.results := by
  unfold writeCmd; split <;> rfl

@[simp] theorem hostRead_eng (addr : HostAddr) (w : Width) (s : State) :
    (hostRead addr w s).eng = s.eng := by
  obtain ⟨d, k, e | ⟨-, e⟩⟩ := hostRead_eq addr w s <;> rw [e]

@[simp] theorem hostRead_results (addr : HostAddr) (w : Width) (s : State) :
    (hostRead addr w s).results = s.results := by
  obtain ⟨d, k, e | ⟨-, e⟩⟩ := hostRead_eq addr w s <;> rw [e]

/-- No write changes a result register. -/
@[simp] theorem hostWrite_results (addr : HostAddr) (w : Width) (v : Word) (s : State) :
    (hostWrite addr w v s).results = s.results := by
  rcases hostWrite_cases addr w v s with
    e | ⟨-, ⟨-, e⟩ | ⟨-, -, e⟩ | ⟨-, -, e⟩ | ⟨-, -, e⟩ | ⟨-, e⟩ | ⟨-, e⟩⟩
  · rw [e]
  · rw [e, accessError_results]
  · rw [e, writeCmd_results]
  · rw [e, writeStatus_results]
  · rw [e]
  · rw [e, dropWrite_results]
  · exact e.results

/-- A write leaves the engine alone, unless it is a `CMD` write that an IDLE engine accepts. -/
theorem hostWrite_eng (addr : HostAddr) (w : Width) (v : Word) (s : State) :
    (hostWrite addr w v s).eng = s.eng ∨
      (addr = 0x0000#16 ∧ w = .w32 ∧ s.eng = .idle ∧ hostWrite addr w v s = accept v s) := by
  rcases hostWrite_cases addr w v s with
    e | ⟨-, ⟨-, e⟩ | ⟨ha, hw, e⟩ | ⟨-, -, e⟩ | ⟨-, -, e⟩ | ⟨-, e⟩ | ⟨-, e⟩⟩
  · exact .inl (by rw [e])
  · exact .inl (by rw [e, accessError_eng])
  · cases hs : s.eng with
    | idle => exact .inr ⟨ha, hw, rfl, e.trans (writeCmd_idle v hs)⟩
    | busy => exact .inl (by rw [e, writeCmd_busy v hs]; exact hs)
  · exact .inl (by rw [e, writeStatus_eng])
  · exact .inl (by rw [e])
  · exact .inl (by rw [e, dropWrite_eng])
  · exact .inl e.eng

/-- A move of the outside world leaves the engine alone, has a `CMD` write accepted, or asserts `rst`. -/
theorem outsideMove_eng_cases (s : State) :
    (outsideMove s).eng = s.eng ∨
    (∃ late w rest, s.eng = .idle ∧ s.agenda = ⟨late, .access (.write 0x0000#16 .w32 w)⟩ :: rest ∧
      outsideMove s = accept w { s with agenda := rest }) ∨
    (s.rst = false ∧ (outsideMove s).rst = true ∧ (outsideMove s).eng = .idle) := by
  rcases outsideMove_cases s with ⟨-, e⟩ | ⟨late, rest, ⟨addr, w, -, e⟩ | ⟨addr, w, v, hag, e⟩ |
    ⟨polls, -, e⟩ | ⟨level, -, e⟩⟩
  · exact .inl (by rw [e])
  · exact .inl (by rw [e, hostRead_eng])
  · rcases hostWrite_eng addr w v { s with agenda := rest } with he | ⟨rfl, rfl, hi, hacc⟩
    · exact .inl (by rw [e, he])
    · exact .inr (.inl ⟨late, v, rest, hi, hag, e.trans hacc⟩)
  · exact .inl (by rw [e, pollStatus_eq])
  · rcases setRst_cases level { s with agenda := rest } with ⟨-, hrel, h⟩ | ⟨-, h⟩
    · exact .inr (.inr ⟨hrel, by rw [e, h, enterReset_rst], by rw [e, h]; rfl⟩)
    · exact .inl (by rw [e, h])

/-- A move of the outside world leaves the result registers alone, or asserts `rst`. -/
theorem outsideMove_results (s : State) :
    (outsideMove s).results = s.results ∨ (s.rst = false ∧ (outsideMove s).rst = true) := by
  rcases outsideMove_cases s with ⟨-, e⟩ | ⟨late, rest, ⟨addr, w, -, e⟩ | ⟨addr, w, v, -, e⟩ |
    ⟨polls, -, e⟩ | ⟨level, -, e⟩⟩
  · exact .inl (by rw [e])
  · exact .inl (by rw [e, hostRead_results])
  · exact .inl (by rw [e, hostWrite_results])
  · exact .inl (by rw [e, pollStatus_eq])
  · rcases setRst_cases level { s with agenda := rest } with ⟨-, hrel, h⟩ | ⟨-, h⟩
    · exact .inr ⟨hrel, by rw [e, h, enterReset_rst]⟩
    · exact .inl (by rw [e, h])

/-- Settles O12: a commit ends in IDLE on the engine's turn, and the outside world moves the engine only
by an accepted `CMD` write or by asserting `rst`. -/
theorem engineChangesOnlyAsAllowed : Obligations.EngineChangesOnlyAsAllowed := by
  intro s t h
  rcases step_cases h with ⟨hturn, -, r, rfl⟩ | ⟨-, rfl⟩
  · exact ⟨fun _ hb => by simp at hb, fun _ _ => .inl hturn⟩
  · rcases outsideMove_eng_cases s with he | ⟨late, w, rest, hi, hag, hacc⟩ | ⟨hrel, hrst, hidle⟩
    · rw [he]
      exact ⟨fun hi hb => by simp [hi] at hb, fun hb hi => by simp [hb] at hi⟩
    · exact ⟨fun _ _ => ⟨late, w, rest, hag, by rw [hacc, accept_lop]⟩, fun hb _ => by simp [hi] at hb⟩
    · exact ⟨fun _ hb => by simp [hidle] at hb, fun _ _ => .inr ⟨hrel, hrst⟩⟩

/-- Settles O45: off the engine's turn the step is the outside world's, which keeps the results or
asserts `rst`. -/
theorem resultsChangeOnlyAtCommit : Obligations.ResultsChangeOnlyAtCommit := by
  intro s t h hturn hrst
  rw [step_outside hturn] at h
  obtain rfl := Host.Outcome.next.inj h
  exact (outsideMove_results s).resolve_right hrst

end Sys2Proof.Machine

/-! The statements about the frame buffer and host accesses (20_memory.md): what an access to the buffer
does, which accesses the address map allows, what a command in flight blocks, and that a command reads and
describes only bytes of its window. -/

namespace Sys2Proof.Machine

/-! ### Legal and illegal accesses -/

theorem unlessBusy_busy (f : State → State) {s : State} (h : s.eng = .busy) :
    unlessBusy f s = { s with writeIgnored := true } := by
  simp [unlessBusy, busy_of_eng h, dropWrite]

theorem readRegister_eq (r : Reg) (s : State) :
    ∃ d k, readRegister r s = { s with rdata := d, draws := k } := by
  unfold readRegister
  split
  · exact ⟨_, _, rfl⟩
  · exact ⟨_, s.draws, rfl⟩

/-- A register that is no result register reads alike in both engine states. -/
theorem readRegister_notResult {r : Reg} (s : State) (h : r.isResult = false) :
    readRegister r s = { s with rdata := readReg s r } := by
  simp [readRegister, h, returnData]

theorem hostRead_illegal {addr : HostAddr} {w : Width} {s : State} (hr : s.rst = false)
    (h : ¬LegalAccess addr w) : hostRead addr w s = { s with rdata := 0, accErr := true } := by
  simp [hostRead, hr, target_illegal h, accessError, returnData]

theorem hostWrite_illegal {addr : HostAddr} {w : Width} {s : State} (v : Word) (hr : s.rst = false)
    (h : ¬LegalAccess addr w) : hostWrite addr w v s = { s with accErr := true } := by
  simp [hostWrite, hr, target_illegal h, accessError]

/-- A legal read hands data to the host and may take a draw, and does nothing else. -/
theorem hostRead_legal {addr : HostAddr} {w : Width} {s : State} (hr : s.rst = false)
    (h : LegalAccess addr w) : ∃ d k, hostRead addr w s = { s with rdata := d, draws := k } := by
  rcases target_cases addr w with ⟨r, -, rfl, ha⟩ | ⟨a, ht, -⟩ | ⟨a, ht, -⟩ | ⟨-, hill⟩
  · rw [hostRead_reg hr ha.symm]
    exact readRegister_eq r s
  · exact ⟨(byteAt s a).setWidth 32, s.draws, by simp [hostRead, hr, ht, returnData]⟩
  · exact ⟨bufWordAt s a, s.draws, by simp [hostRead, hr, ht, returnData]⟩
  · exact absurd h hill

@[simp] theorem writeCmd_accErr (w : Word) (s : State) : (writeCmd w s).accErr = s.accErr := by
  unfold writeCmd; split <;> rfl

theorem Stored.accErr {addr : HostAddr} {w : Width} {v : Word} {s t : State}
    (h : Stored addr w v s t) : t.accErr = s.accErr := by
  cases h <;> simp

/-- A legal write does not set ACC_ERR; a `STATUS` write may clear it. -/
theorem hostWrite_legal_accErr {addr : HostAddr} {w : Width} {v : Word} {s : State}
    (h : LegalAccess addr w) (hset : (hostWrite addr w v s).accErr = true) : s.accErr = true := by
  rcases hostWrite_cases addr w v s with
    e | ⟨-, ⟨hill, -⟩ | ⟨-, -, e⟩ | ⟨-, -, e⟩ | ⟨-, -, e⟩ | ⟨-, e⟩ | ⟨-, e⟩⟩
  · rwa [e] at hset
  · exact absurd h hill
  · rwa [e, writeCmd_accErr] at hset
  · rw [e, writeStatus_accErr, Bool.and_eq_true] at hset
    exact hset.1
  · rwa [e] at hset
  · rwa [e, dropWrite_accErr] at hset
  · rwa [e.accErr] at hset

/-- Settles O41: an access that is not legal touches nothing; a legal one does not set ACC_ERR. -/
theorem illegalAccessSetsAccErrOnly : Obligations.IllegalAccessSetsAccErrOnly := by
  refine fun addr w s hr => ⟨fun h => ⟨hostRead_illegal hr h, fun v => hostWrite_illegal v hr h⟩,
    fun h => ⟨?_, fun v => hostWrite_legal_accErr h⟩⟩
  obtain ⟨d, k, e⟩ := hostRead_legal hr h
  rw [e]

/-- Settles O43: a read while `rst` is asserted returns 0, and a legal one hands over data. -/
theorem readsHaveNoSideEffect : Obligations.ReadsHaveNoSideEffect := by
  intro addr w s h
  by_cases hr : s.rst = true
  · exact ⟨0, s.draws, by simp [hostRead, hr, returnData]⟩
  · exact hostRead_legal (by simpa using hr) (h.resolve_right hr)

/-! ### Reads of the registers -/

theorem hostRead_notResult {addr : HostAddr} {r : Reg} {s : State} (hr : s.rst = false)
    (ha : addr.toNat = r.addr) (h : r.isResult = false) :
    (hostRead addr .w32 s).rdata = readReg s r := by
  rw [hostRead_reg hr ha, readRegister_notResult s h]

theorem hostRead_result_idle {addr : HostAddr} {r : Reg} {s : State} (hr : s.rst = false)
    (hi : s.eng = .idle) (ha : addr.toNat = r.addr) (h : r.isResult = true) :
    (hostRead addr .w32 s).rdata = s.results.read r := by
  rw [hostRead_reg hr ha, readRegister_result_idle h hi]

/-- A field at bit 0. -/
theorem place_zero {w : Nat} (x : BitVec w) : place x 0 = x.setWidth 32 := BitVec.shiftLeft_zero _

theorem readReg_bufSz (s : State) : (readReg s .bufSz).toNat = Config.bufSize := by
  have := bufSize_le
  simp only [readReg, BitVec.toNat_ofNat]; omega

/-- Settles O30: each address is one register's, read in any engine state or, for a result, while IDLE. -/
theorem addressMapReads : Obligations.AddressMapReads := by
  intro s hr
  have haddr (r : Reg) : (busAddr r.addr).toNat = r.addr :=
    busAddr_toNat (by have := addr_lt r; omega)
  have control (r : Reg) (h : r.isResult = false) :
      (hostRead (busAddr r.addr) .w32 s).rdata = readReg s r := hostRead_notResult hr (haddr r) h
  refine ⟨⟨control .cmd rfl, control .status rfl, control .ctrl rfl, control .inOff rfl,
    control .inLen rfl, (control .classArg rfl).trans (place_zero _),
    (congrArg _ (control .bufSz rfl)).trans (readReg_bufSz s)⟩, fun hi => ?_⟩
  have result (r : Reg) (h : r.isResult = true) :
      (hostRead (busAddr r.addr) .w32 s).rdata = s.results.read r :=
    hostRead_result_idle hr hi (haddr r) h
  exact ⟨result .classRes rfl, result .valid rfl, result .ethDstHi rfl, result .ethDstLo rfl,
    result .ethSrcHi rfl, result .ethSrcLo rfl, result .ethType rfl, result .ethFrameLen rfl,
    result .ethPayOff rfl, result .ethPayLen rfl, result .ipW0 rfl, result .ipW1 rfl,
    result .ipW2 rfl, result .ipW3 rfl, result .ipW4 rfl, result .ipSrc rfl, result .ipDst rfl,
    result .ipOptOff rfl, result .ipOptLen rfl, result .ipPayOff rfl, result .ipPayLen rfl,
    result .tcpPorts rfl, result .tcpSeq rfl, result .tcpAck rfl, result .tcpCtl rfl,
    result .tcpWinCsum rfl, result .tcpUrg rfl, result .tcpPayOff rfl, result .tcpPayLen rfl,
    result .udpPorts rfl, result .udpLenCsum rfl, result .udpPayOff rfl, result .udpPayLen rfl,
    result .icmpW0 rfl, result .icmpW1 rfl⟩

/-! ### Accesses to the buffer -/

/-- The buffer ends at a multiple of 4, so a word that starts in it lies in it (00_scope R5). -/
theorem word_lt_bufSize {a : Nat} (ha : a < Config.bufSize) (h4 : a % 4 = 0) :
    a + 3 < Config.bufSize := by
  have := bufSize_mod
  omega

section BufferAccess

variable {s : State} {a : Nat} (hr : s.rst = false) (ha : a < Config.bufSize)
include hr ha

theorem hostRead_bufByte :
    hostRead (busAddr (0x1000 + a)) .w8 s = { s with rdata := (byteAt s a).setWidth 32 } := by
  simp [hostRead, hr, target_bufByte (busAddr_buf ha) ha, returnData]

theorem hostWrite_bufByte (v : Word) : hostWrite (busAddr (0x1000 + a)) .w8 v s =
    unlessBusy (writeByte a (v.extractLsb' 0 8)) s := by
  simp [hostWrite, hr, target_bufByte (busAddr_buf ha) ha]

theorem hostRead_bufWord (h4 : a % 4 = 0) :
    hostRead (busAddr (0x1000 + a)) .w32 s = { s with rdata := bufWordAt s a } := by
  simp [hostRead, hr, target_bufWord (busAddr_buf ha) h4 (word_lt_bufSize ha h4), returnData]

theorem hostWrite_bufWord (h4 : a % 4 = 0) (v : Word) :
    hostWrite (busAddr (0x1000 + a)) .w32 v s = unlessBusy (writeBufWord a v) s := by
  simp [hostWrite, hr, target_bufWord (busAddr_buf ha) h4 (word_lt_bufSize ha h4)]

end BufferAccess

/-- A misaligned word access is illegal (20_memory R55). -/
theorem not_legalAccess_misaligned {a : Nat} (ha : a < Config.bufSize) (h4 : a % 4 ≠ 0) :
    ¬LegalAccess (busAddr (0x1000 + a)) .w32 := by
  rintro (⟨-, hal, -⟩ | ⟨hw, -⟩)
  · rw [busAddr_buf ha] at hal; omega
  · cases hw

/-- The four bytes of a word write, in the order of their addresses. -/
theorem byteAt_writeBufWord_ascending (a x : Nat) (v : Word) (s : State) :
    byteAt (writeBufWord a v s) x =
      if x = a then v.extractLsb' 0 8 else if x = a + 1 then v.extractLsb' 8 8
      else if x = a + 2 then v.extractLsb' 16 8 else if x = a + 3 then v.extractLsb' 24 8
      else byteAt s x := by
  rw [byteAt_writeBufWord]
  by_cases h0 : x = a
  · simp [h0]
  by_cases h1 : x = a + 1
  · simp [h1]
  by_cases h2 : x = a + 2
  · simp [h2]
  simp [h0, h1, h2]

/-- Settles O37: a byte access touches its byte, and a store is dropped while BUSY. -/
theorem bufferByteAccess : Obligations.BufferByteAccess := by
  intro s a v ha hr
  rw [hostWrite_bufByte hr ha]
  refine ⟨hostRead_bufByte hr ha, fun hi => ?_, unlessBusy_busy _⟩
  rw [unlessBusy_idle _ hi]
  exact ⟨fun x => byteAt_writeByte a x _ s, rfl⟩

/-- Settles O38: an aligned word access touches its four bytes, and a misaligned one is illegal. -/
theorem bufferWordAccess : Obligations.BufferWordAccess := by
  intro s a v ha hr
  refine ⟨hostRead_bufWord hr ha, fun h4 hi => ?_, fun h4 hb => ?_, fun h4 => ?_⟩
  · rw [hostWrite_bufWord hr ha h4, unlessBusy_idle _ hi]
    exact ⟨fun x => byteAt_writeBufWord_ascending a x v s, rfl⟩
  · rw [hostWrite_bufWord hr ha h4, unlessBusy_busy _ hb]
  · have hill := not_legalAccess_misaligned ha h4
    exact ⟨hostWrite_illegal v hr hill, hostRead_illegal hr hill⟩

/-! ### The bytes of a word -/

/-- A buffer word holds the byte at its `k`-th address in its `k`-th lane (20_memory R64). -/
theorem bufWordAt_lane (s : State) (a : Nat) {k : Nat} (hk : k < 4) :
    (bufWordAt s a).extractLsb' (8 * k) 8 = byteAt s (a + k) := by
  have h0 := (byteAt s a).isLt
  have h1 := (byteAt s (a + 1)).isLt
  have h2 := (byteAt s (a + 2)).isLt
  have h3 := (byteAt s (a + 3)).isLt
  apply BitVec.eq_of_toNat_eq
  rw [BitVec.extractLsb'_toNat, bufWordAt, append4_toNat, Nat.shiftRight_eq_div_pow]
  obtain rfl | rfl | rfl | rfl : k = 0 ∨ k = 1 ∨ k = 2 ∨ k = 3 := by omega
  all_goals simp only [Nat.reduceMul, Nat.reducePow, Nat.div_one, Nat.add_zero]; omega

/-- A word is its four bytes put together. -/
theorem word_eq_append_bytes (v : Word) :
    v.extractLsb' 24 8 ++ v.extractLsb' 16 8 ++ v.extractLsb' 8 8 ++ v.extractLsb' 0 8 = v := by
  have := v.isLt
  apply BitVec.eq_of_toNat_eq
  simp only [append4_toNat, BitVec.extractLsb'_toNat, Nat.shiftRight_eq_div_pow]
  omega

/-- Settles O39: a byte write is seen in its lane of the aligned word, by the engine and by a byte read. -/
theorem mixedWidthViewsAgree : Obligations.MixedWidthViewsAgree := by
  intro s a v ha hr hi
  rw [hostWrite_bufByte hr ha, unlessBusy_idle _ hi]
  have hbyte : byteAt (writeByte a (v.extractLsb' 0 8) s) a = v.extractLsb' 0 8 := by
    rw [byteAt_writeByte, if_pos rfl]
  have hsum : a / 4 * 4 + a % 4 = a := by omega
  refine ⟨?_, hbyte, ?_⟩
  · rw [hostRead_bufWord (a := a / 4 * 4) (by rwa [writeByte_rst]) (by omega) (by omega),
      bufWordAt_lane _ _ (Nat.mod_lt a (by decide)), hsum, hbyte]
  · rw [hostRead_bufByte (by rwa [writeByte_rst]) ha, hbyte]

/-- Settles O40: a word write puts bits 7:0 at the lowest address, which the engine reads as most
significant and the host as least. -/
theorem engineReadsBigEndian : Obligations.EngineReadsBigEndian := by
  intro s a v ha h4 hr hi
  have ha' : a < Config.bufSize := by omega
  have hrst : (writeBufWord a v s).rst = false := by rwa [writeBufWord_rst]
  rw [hostWrite_bufWord hr ha' h4, unlessBusy_idle _ hi]
  refine ⟨?_, ?_, ?_, ?_⟩
  · simp [memRead32, byteAt_writeBufWord]
  · simp [memRead16, byteAt_writeBufWord]
  · simp [memRead8, byteAt_writeBufWord]
  · rw [hostRead_bufWord hrst ha' h4]
    simp [bufWordAt, byteAt_writeBufWord, word_eq_append_bytes]

/-! ### While a command is in flight -/

/-- Below the buffer's window only 32-bit accesses are legal (20_memory R52). -/
theorem LegalAccess.width_eq {addr : HostAddr} {w : Width} (h : LegalAccess addr w)
    (hlt : addr.toNat < 0x1000) : w = .w32 := by
  rcases h with ⟨hw, -⟩ | ⟨-, hrow, -⟩
  · exact hw
  · omega

/-- A legal write to the buffer is dropped while BUSY, whatever its width. -/
theorem hostWrite_bufferRow_busy {addr : HostAddr} {w : Width} {s : State} (v : Word)
    (hr : s.rst = false) (hb : s.eng = .busy) (h : LegalAccess addr w) (hrow : BufferRow addr.toNat) :
    hostWrite addr w v s = { s with writeIgnored := true } := by
  obtain ⟨hlo, -⟩ := hrow
  rcases target_cases addr w with ⟨r, -, -, ha⟩ | ⟨a, ht, -⟩ | ⟨a, ht, -⟩ | ⟨-, hill⟩
  · have := addr_lt r; omega
  · simp [hostWrite, hr, ht, unlessBusy_busy _ hb]
  · simp [hostWrite, hr, ht, unlessBusy_busy _ hb]
  · exact absurd h hill

/-- A legal write to an input register is dropped while BUSY. -/
theorem hostWrite_input_busy {addr : HostAddr} {w : Width} {r : Reg} {s : State} (v : Word)
    (hr : s.rst = false) (hb : s.eng = .busy) (h : LegalAccess addr w) (ha : addr.toNat = r.addr)
    (hin : r = .inOff ∨ r = .inLen ∨ r = .classArg) :
    hostWrite addr w v s = { s with writeIgnored := true } := by
  obtain rfl := h.width_eq (by have := addr_lt r; omega)
  rw [hostWrite_reg v hr ha]
  rcases hin with rfl | rfl | rfl <;> rw [writeReg, unlessBusy_busy _ hb]

/-- Settles O42: each write is its target's, and a store is dropped while BUSY; no read is blocked. -/
theorem writesWhileBusy : Obligations.WritesWhileBusy := by
  intro s hb hr
  refine ⟨fun addr w v hleg hrow => ?_, fun v => hostWrite_reg (r := .ctrl) v hr rfl,
    fun v => hostWrite_reg (r := .status) v hr rfl,
    fun v => (hostWrite_reg (r := .cmd) v hr rfl).trans (writeCmd_busy v hb),
    fun r => hostRead_notResult hr (busAddr_toNat (by have := addr_lt r; omega)),
    fun a ha => ⟨by rw [hostRead_bufByte hr ha], fun h4 => by rw [hostRead_bufWord hr ha h4]; rfl⟩⟩
  rcases hrow with hrow | rfl | rfl | rfl
  · exact hostWrite_bufferRow_busy v hr hb hleg hrow
  · exact hostWrite_input_busy (r := .inOff) v hr hb hleg rfl (.inl rfl)
  · exact hostWrite_input_busy (r := .inLen) v hr hb hleg rfl (.inr (.inl rfl))
  · exact hostWrite_input_busy (r := .classArg) v hr hb hleg rfl (.inr (.inr rfl))

/-- Everything a write can do while BUSY: change `CTRL`, clear DONE, set or clear a sticky bit. -/
theorem hostWrite_busy_eq (addr : HostAddr) (w : Width) (v : Word) {s : State} (hb : s.eng = .busy) :
    ∃ irqEn done cmdIgnored writeIgnored accErr, hostWrite addr w v s = { s with
      irqEn := irqEn, done := done, cmdIgnored := cmdIgnored, writeIgnored := writeIgnored,
      accErr := accErr } := by
  rcases hostWrite_cases addr w v s with
    e | ⟨-, ⟨-, e⟩ | ⟨-, -, e⟩ | ⟨-, -, e⟩ | ⟨-, -, e⟩ | ⟨-, e⟩ | ⟨hidle, -⟩⟩
  · exact ⟨_, _, _, _, _, e⟩
  · exact ⟨_, _, _, _, _, e⟩
  · exact ⟨_, _, _, _, _, e.trans (writeCmd_busy v hb)⟩
  · exact ⟨_, _, _, _, _, e⟩
  · exact ⟨_, _, _, _, _, e⟩
  · exact ⟨_, _, _, _, _, e⟩
  · rw [busy_of_eng hb] at hidle
    cases hidle

/-- What a command in flight works on: the buffer's bytes, which are those listed and the draw in force
for the others, the input registers, and the latched operands (20_memory R59). -/
def inputsOf (s : State) :
    Memory × Nat × Word × Word × BitVec 16 × Word × Word × Word × BitVec 16 :=
  (s.buf, s.resets, s.inOff, s.inLen, s.classArg, s.lop, s.loff, s.llen, s.larg)

@[simp] theorem inputsOf_commit (r : Parsed Groups) (s : State) :
    inputsOf (commit r s) = inputsOf s := by
  cases r <;> rfl

/-- While BUSY a move of the outside world keeps the inputs, or asserts `rst`. -/
theorem outsideMove_inputsOf {s : State} (hb : s.eng = .busy) :
    inputsOf (outsideMove s) = inputsOf s ∨ (s.rst = false ∧ (outsideMove s).rst = true) := by
  rcases outsideMove_cases s with ⟨-, e⟩ | ⟨late, rest, ⟨addr, w, -, e⟩ | ⟨addr, w, v, -, e⟩ |
    ⟨polls, -, e⟩ | ⟨level, -, e⟩⟩ <;> rw [e]
  · exact .inl rfl
  · obtain ⟨d, k, h | ⟨-, h⟩⟩ := hostRead_eq addr w { s with agenda := rest } <;>
      exact .inl (by rw [h]; rfl)
  · obtain ⟨_, _, _, _, _, h⟩ := hostWrite_busy_eq addr w v (s := { s with agenda := rest }) hb
    exact .inl (by rw [h]; rfl)
  · exact .inl (by rw [pollStatus_eq]; rfl)
  · rcases setRst_cases level { s with agenda := rest } with ⟨-, hrel, h⟩ | ⟨-, h⟩
    · exact .inr ⟨hrel, by rw [h, enterReset_rst]⟩
    · exact .inl (by rw [h]; rfl)

/-- Settles O44: a commit keeps the inputs, and so does every other move that does not assert `rst`. -/
theorem inputsStableWhileBusy : Obligations.InputsStableWhileBusy := by
  intro s t hb h hrst
  have hkept : inputsOf t = inputsOf s := by
    rcases step_cases h with ⟨-, -, r, rfl⟩ | ⟨-, rfl⟩
    · exact inputsOf_commit r s
    · exact (outsideMove_inputsOf hb).resolve_right hrst
  simp only [inputsOf, Prod.mk.injEq] at hkept
  obtain ⟨hbuf, hresets, hregs⟩ := hkept
  exact ⟨byteAt_congr hbuf hresets, hregs⟩

/-! ### A command reads only its window -/

/-- Inside a window that fits the buffer, `f` sees nothing but the window's bytes (20_memory R58). -/
def ReadsOnlyWindow (f : (Nat → Byte) → Nat → Nat → Parsed Groups) : Prop :=
  ∀ (B B' : Nat → Byte) (o n : Nat), o + n ≤ Config.bufSize →
    (∀ a, o ≤ a → a < o + n → B a = B' a) → f B o n = f B' o n

theorem cmdParseEth_readsOnlyWindow : ReadsOnlyWindow cmdParseEth := fun _ _ _ _ _ hB => by
  rw [cmdParseEth, cmdParseEth, parseEth_congr hB]

theorem cmdParseIpv4_readsOnlyWindow : ReadsOnlyWindow cmdParseIpv4 := fun _ _ _ _ _ hB => by
  rw [cmdParseIpv4, cmdParseIpv4, parseIpv4_congr hB]

theorem cmdParseTcp_readsOnlyWindow : ReadsOnlyWindow cmdParseTcp := fun _ _ _ _ _ hB => by
  rw [cmdParseTcp, cmdParseTcp, parseTcp_congr hB]

theorem cmdParseUdp_readsOnlyWindow : ReadsOnlyWindow cmdParseUdp := fun _ _ _ _ _ hB => by
  rw [cmdParseUdp, cmdParseUdp, parseUdp_congr hB]

theorem cmdParseIcmp_readsOnlyWindow : ReadsOnlyWindow cmdParseIcmp := fun _ _ _ _ _ hB => by
  rw [cmdParseIcmp, cmdParseIcmp, parseIcmp_congr hB]

theorem parseTransport_congr {B B' : Nat → Byte} (e : EthGroup) {i : IpGroup}
    (hB : ∀ a, i.payOff.toNat ≤ a → a < i.payOff.toNat + i.payLen.toNat → B a = B' a) :
    parseTransport B e i = parseTransport B' e i := by
  simp only [parseTransport, parseIcmp_congr hB, parseTcp_congr hB, parseUdp_congr hB]

/-- The IPv4 payload lies in the Ethernet payload, so the two layers above Ethernet read only there. -/
theorem parseNetwork_congr {B B' : Nat → Byte} {e : EthGroup}
    (hf : e.payOff.toNat + e.payLen.toNat ≤ Config.bufSize)
    (hB : ∀ a, e.payOff.toNat ≤ a → a < e.payOff.toNat + e.payLen.toNat → B a = B' a) :
    parseNetwork B e = parseNetwork B' e := by
  rw [parseNetwork, parseNetwork, ← parseIpv4_congr hB]
  cases hip : parseIpv4 B e.payOff.toNat e.payLen.toNat with
  | err c l => rfl
  | ok i =>
    obtain ⟨-, hend, -, hstart, -, -⟩ := parseIpv4_sound hf hip
    have ht : parseTransport B e i = parseTransport B' e i :=
      parseTransport_congr e fun a h1 h2 => hB a (by omega) (by omega)
    simp only [ht]

theorem cmdParseFrame_readsOnlyWindow : ReadsOnlyWindow cmdParseFrame := by
  intro B B' o n hf hB
  rw [cmdParseFrame, cmdParseFrame, ← parseEth_congr hB]
  cases heth : parseEth B o n with
  | err c l => rfl
  | ok e =>
    obtain ⟨-, hend, -, hstart⟩ := parseEth_sound hf heth
    exact parseNetwork_congr (by omega) fun a h1 h2 => hB a (by omega) (by omega)

theorem onWindow_congr {f : (Nat → Byte) → Nat → Nat → Parsed Groups} (hf : ReadsOnlyWindow f)
    {s s' : State} (hoff : s'.loff = s.loff) (hlen : s'.llen = s.llen) (hB : SameWindowBytes s s') :
    onWindow f s' = onWindow f s := by
  by_cases hfit : s.loff.toNat + s.llen.toNat ≤ Config.bufSize
  · rw [onWindow_fits hfit, onWindow_fits (by rwa [hoff, hlen]), hoff, hlen]
    exact (hf _ _ _ _ hfit hB).symm
  · rw [onWindow_exceeds hfit, onWindow_exceeds (by rwa [hoff, hlen])]

/-- A command's outcome is a function of its latched operands and its window's bytes (30_encoding R70). -/
theorem outcomeOf_congr (i : Instr) {s s' : State} (hoff : s'.loff = s.loff) (hlen : s'.llen = s.llen)
    (harg : s'.larg = s.larg) (hB : SameWindowBytes s s') : outcomeOf i s' = outcomeOf i s := by
  cases i with
  | parseEth => exact onWindow_congr cmdParseEth_readsOnlyWindow hoff hlen hB
  | parseIpv4 => exact onWindow_congr cmdParseIpv4_readsOnlyWindow hoff hlen hB
  | parseTcp => exact onWindow_congr cmdParseTcp_readsOnlyWindow hoff hlen hB
  | parseUdp => exact onWindow_congr cmdParseUdp_readsOnlyWindow hoff hlen hB
  | parseIcmp => exact onWindow_congr cmdParseIcmp_readsOnlyWindow hoff hlen hB
  | parseFrame => exact onWindow_congr cmdParseFrame_readsOnlyWindow hoff hlen hB
  | classifyEtype => rw [outcomeOf, outcomeOf, etypeOperand, etypeOperand, harg]
  | classifyIpproto | classifyIcmptype => rw [outcomeOf, outcomeOf, byteOperand, byteOperand, harg]

/-- Settles O28: the two outcomes are equal, and what a commit writes is its outcome's. -/
theorem outcomeDependsOnWindowOnly : Obligations.OutcomeDependsOnWindowOnly := by
  intro i s s' t t' hoff hlen harg hB h h'
  obtain rfl := exec_next h
  obtain rfl := exec_next h'
  rw [outcomeOf_congr i hoff hlen harg hB]
  cases outcomeOf i s <;> exact ⟨rfl, rfl, rfl⟩

/-! ### A command's descriptors stay in its window -/

/-- The descriptor names bytes of `[start, stop)`, which lies inside the buffer (20_memory R60). -/
def DescriptorIn (start stop : Nat) (off len : Word) : Prop :=
  start ≤ off.toNat ∧ off.toNat + len.toNat ≤ stop ∧ stop ≤ Config.bufSize

/-- Both descriptors of an IPv4 group; without options, the second is (0, 0) (10_state R33). -/
def IpDescriptorsIn (start stop : Nat) (i : IpGroup) : Prop :=
  start ≤ i.payOff.toNat ∧ i.payOff.toNat + i.payLen.toNat ≤ stop ∧
    (i.optPresent = true → start ≤ i.optOff.toNat) ∧
    (i.optPresent = false → i.optOff = 0 ∧ i.optLen = 0) ∧
    i.optOff.toNat + i.optLen.toNat ≤ stop ∧ stop ≤ Config.bufSize

/-- Every descriptor of a valid group lies in `[start, stop)`. -/
structure DescriptorsIn (start stop : Nat) (x : Results) : Prop where
  eth : x.valid.eth = true → DescriptorIn start stop x.eth.payOff x.eth.payLen
  ip : x.valid.ip = true → IpDescriptorsIn start stop x.ip
  tcp : x.valid.tcp = true → DescriptorIn start stop x.tcp.payOff x.tcp.payLen
  udp : x.valid.udp = true → DescriptorIn start stop x.udp.payOff x.udp.payLen

theorem zero_descriptorsIn (start stop : Nat) : DescriptorsIn start stop Results.zero :=
  ⟨nofun, nofun, nofun, nofun⟩

/-- An `Ok` outcome of `f` on a window that fits the buffer has its descriptors in that window. -/
def DescribesOnlyWindow (f : (Nat → Byte) → Nat → Nat → Parsed Groups) : Prop :=
  ∀ (B : Nat → Byte) (o n : Nat) (g : Groups), o + n ≤ Config.bufSize → f B o n = .ok g →
    DescriptorsIn o (o + n) (.ofGroups g)

section NestedWindow

variable {B : Nat → Byte} {o n start stop : Nat} (hs : start ≤ o) (hin : o + n ≤ stop)
  (hbuf : stop ≤ Config.bufSize)
include hs hin hbuf

theorem parseEth_descriptorIn {e : EthGroup} (h : parseEth B o n = .ok e) :
    DescriptorIn start stop e.payOff e.payLen := by
  obtain ⟨-, hend, -, hstart⟩ := parseEth_sound (hin.trans hbuf) h
  exact ⟨hs.trans hstart, hend.trans_le hin, hbuf⟩

theorem parseIpv4_descriptorsIn {i : IpGroup} (h : parseIpv4 B o n = .ok i) :
    IpDescriptorsIn start stop i := by
  obtain ⟨hsound, hend, hoptEnd, hstart, -, hoptStart⟩ := parseIpv4_sound (hin.trans hbuf) h
  exact ⟨by omega, hend.trans hin, fun hopt => by rw [hoptStart hopt]; omega, hsound.optionsAbsent,
    hoptEnd.trans hin, hbuf⟩

theorem parseTcp_descriptorIn {t : TcpGroup} (h : parseTcp B o n = .ok t) :
    DescriptorIn start stop t.payOff t.payLen := by
  obtain ⟨-, hend, hstart⟩ := parseTcp_sound (hin.trans hbuf) h
  exact ⟨hs.trans hstart, hend.trans hin, hbuf⟩

theorem parseUdp_descriptorIn {u : UdpGroup} (h : parseUdp B o n = .ok u) :
    DescriptorIn start stop u.payOff u.payLen := by
  obtain ⟨hend, hstart⟩ := parseUdp_sound (hin.trans hbuf) h
  exact ⟨hs.trans hstart, hend.trans hin, hbuf⟩

end NestedWindow

theorem cmdParseEth_describesOnlyWindow : DescribesOnlyWindow cmdParseEth := by
  intro B o n g hf h
  unfold cmdParseEth at h
  split at h <;> cases h
  next e heth => exact ⟨fun _ => parseEth_descriptorIn le_rfl le_rfl hf heth, nofun, nofun, nofun⟩

theorem cmdParseIpv4_describesOnlyWindow : DescribesOnlyWindow cmdParseIpv4 := by
  intro B o n g hf h
  unfold cmdParseIpv4 at h
  split at h <;> cases h
  next i hip => exact ⟨nofun, fun _ => parseIpv4_descriptorsIn le_rfl le_rfl hf hip, nofun, nofun⟩

theorem cmdParseTcp_describesOnlyWindow : DescribesOnlyWindow cmdParseTcp := by
  intro B o n g hf h
  unfold cmdParseTcp at h
  split at h <;> cases h
  next t htcp => exact ⟨nofun, nofun, fun _ => parseTcp_descriptorIn le_rfl le_rfl hf htcp, nofun⟩

theorem cmdParseUdp_describesOnlyWindow : DescribesOnlyWindow cmdParseUdp := by
  intro B o n g hf h
  unfold cmdParseUdp at h
  split at h <;> cases h
  next u hudp => exact ⟨nofun, nofun, nofun, fun _ => parseUdp_descriptorIn le_rfl le_rfl hf hudp⟩

/-- The ICMP group has no descriptor. -/
theorem cmdParseIcmp_describesOnlyWindow : DescribesOnlyWindow cmdParseIcmp := by
  intro B o n g hf h
  unfold cmdParseIcmp at h
  split at h <;> cases h
  exact ⟨nofun, nofun, nofun, nofun⟩

/-- What the transport layer of a frame adds to the two groups below it (47_pipeline R111). -/
theorem parseTransport_ok {B : Nat → Byte} {e : EthGroup} {i : IpGroup} {g : Groups}
    (h : parseTransport B e i = .ok g) :
    (∃ m, g = { eth := some e, ip := some i, icmp := m }) ∨
    (∃ t, parseTcp B i.payOff.toNat i.payLen.toNat = .ok t ∧
      g = { eth := some e, ip := some i, tcp := some t }) ∨
    (∃ u, parseUdp B i.payOff.toNat i.payLen.toNat = .ok u ∧
      g = { eth := some e, ip := some i, udp := some u }) := by
  unfold parseTransport at h
  dsimp only at h
  split at h
  · split at h <;> cases h
    exact .inl ⟨_, rfl⟩
  split at h
  · split at h <;> cases h
    next t htcp => exact .inr (.inl ⟨t, htcp, rfl⟩)
  split at h
  · split at h <;> cases h
    next u hudp => exact .inr (.inr ⟨u, hudp, rfl⟩)
  cases h
  exact .inl ⟨none, rfl⟩

/-- The transport layer runs on the IPv4 payload, so what lies in that lies where it lies. -/
theorem parseTransport_descriptorsIn {B : Nat → Byte} {e : EthGroup} {i : IpGroup} {g : Groups}
    {start stop : Nat} (he : DescriptorIn start stop e.payOff e.payLen)
    (hi : IpDescriptorsIn start stop i) (h : parseTransport B e i = .ok g) :
    DescriptorsIn start stop (.ofGroups g) := by
  have ⟨hs, hin, _, _, _, hbuf⟩ := hi
  rcases parseTransport_ok h with ⟨m, rfl⟩ | ⟨t, htcp, rfl⟩ | ⟨u, hudp, rfl⟩
  · exact ⟨fun _ => he, fun _ => hi, nofun, nofun⟩
  · exact ⟨fun _ => he, fun _ => hi, fun _ => parseTcp_descriptorIn hs hin hbuf htcp, nofun⟩
  · exact ⟨fun _ => he, fun _ => hi, nofun, fun _ => parseUdp_descriptorIn hs hin hbuf hudp⟩

/-- Each layer of a frame runs on the payload of the layer below. -/
theorem cmdParseFrame_describesOnlyWindow : DescribesOnlyWindow cmdParseFrame := by
  intro B o n g hf h
  rcases cmdParseFrame_cases B o n with ⟨c, l, hfail, -⟩ | ⟨e, heth, hnet⟩
  · rw [hfail] at h; cases h
  have he := parseEth_descriptorIn le_rfl le_rfl hf heth
  rcases hnet with ⟨-, hok⟩ | ⟨-, ⟨c, l, -, hfail⟩ | ⟨i, hip, hok⟩⟩
  · rw [hok] at h; cases h
    exact ⟨fun _ => he, nofun, nofun, nofun⟩
  · rw [hfail] at h; cases h
  · have ⟨hs, hin, hbuf⟩ := he
    exact parseTransport_descriptorsIn he (parseIpv4_descriptorsIn hs hin hbuf hip) (hok ▸ h)

/-- The results a parse command commits describe only its window; after an error there are none. -/
theorem commit_onWindow_descriptorsIn {f : (Nat → Byte) → Nat → Nat → Parsed Groups}
    (hf : DescribesOnlyWindow f) (s : State) :
    DescriptorsIn s.loff.toNat (s.loff.toNat + s.llen.toNat) (commit (onWindow f s) s).results := by
  by_cases hfit : s.loff.toNat + s.llen.toNat ≤ Config.bufSize
  · rw [onWindow_fits hfit]
    cases hg : f (byteAt s) s.loff.toNat s.llen.toNat with
    | ok g => exact hf _ _ _ g hfit hg
    | err c l => exact zero_descriptorsIn _ _
  · rw [onWindow_exceeds hfit]
    exact zero_descriptorsIn _ _

/-- A classify command commits no descriptor. -/
theorem commit_outcomeOf_descriptorsIn (i : Instr) (s : State) :
    DescriptorsIn s.loff.toNat (s.loff.toNat + s.llen.toNat) (commit (outcomeOf i s) s).results := by
  cases i with
  | parseEth => exact commit_onWindow_descriptorsIn cmdParseEth_describesOnlyWindow s
  | parseIpv4 => exact commit_onWindow_descriptorsIn cmdParseIpv4_describesOnlyWindow s
  | parseTcp => exact commit_onWindow_descriptorsIn cmdParseTcp_describesOnlyWindow s
  | parseUdp => exact commit_onWindow_descriptorsIn cmdParseUdp_describesOnlyWindow s
  | parseIcmp => exact commit_onWindow_descriptorsIn cmdParseIcmp_describesOnlyWindow s
  | parseFrame => exact commit_onWindow_descriptorsIn cmdParseFrame_describesOnlyWindow s
  | classifyEtype | classifyIpproto | classifyIcmptype => exact ⟨nofun, nofun, nofun, nofun⟩

/-- Settles O29: the results a command leaves are its commit's. -/
theorem descriptorsStayInWindow : Obligations.DescriptorsStayInWindow := by
  intro i s t h
  obtain rfl := exec_next h
  obtain ⟨heth, hip, htcp, hudp⟩ := commit_outcomeOf_descriptorsIn i s
  exact ⟨heth, hip, htcp, hudp⟩

end Sys2Proof.Machine

/-! The statements about command words and the life of a command (30_encoding.md): the decoder against
the table, acceptance, execution and commit of one command, the loop `wait` and the accesses of a host
program. -/

namespace Sys2Proof.Machine

/-! ### The decoder and the encoder -/

theorem op_toNat (w : Word) : (w.extractLsb' 0 4).toNat = w.toNat % 16 := by
  rw [BitVec.extractLsb'_toNat, Nat.shiftRight_zero]

theorem rsvd_toNat (w : Word) : (w.extractLsb' 4 28).toNat = w.toNat / 16 := by
  have hw := word_of_fields w
  have hop := op_toNat w
  omega

/-- A command word is its reserved bits and its opcode (30_encoding R65). -/
theorem word_eq_iff_fields (w v : Word) :
    w = v ↔ w.extractLsb' 4 28 = v.extractLsb' 4 28 ∧ w.extractLsb' 0 4 = v.extractLsb' 0 4 := by
  constructor
  · rintro rfl
    exact ⟨rfl, rfl⟩
  · rintro ⟨hrsvd, hop⟩
    apply BitVec.eq_of_toNat_eq
    rw [word_of_fields w, word_of_fields v, hrsvd, hop]

@[simp] theorem encode_rsvd (i : Instr) : (encode i).extractLsb' 4 28 = 0 := by cases i <;> rfl

@[simp] theorem encode_op (i : Instr) : (encode i).extractLsb' 0 4 = i.opcode := by cases i <;> rfl

/-- Settles O2: decoding to a command fixes both fields, at the values they have in its encoding. -/
theorem decodeExactlyEncodedWords : Obligations.DecodeExactlyEncodedWords := by
  intro w i
  rw [decode_eq_command, word_eq_iff_fields, encode_rsvd, encode_op]

theorem decode_encode (i : Instr) : decode (encode i) = .command i :=
  (decodeExactlyEncodedWords _ i).2 rfl

/-- Settles O1: the nine words are the encodings of the nine commands. -/
theorem commandWordsDecode : Obligations.CommandWordsDecode :=
  ⟨decode_encode .parseEth, decode_encode .parseIpv4, decode_encode .parseTcp,
    decode_encode .parseUdp, decode_encode .parseIcmp, decode_encode .parseFrame,
    decode_encode .classifyEtype, decode_encode .classifyIpproto, decode_encode .classifyIcmptype,
    by decide, by decide⟩

/-- `RSVD` is 0 and `OP` is one that 30_encoding R66 assigns, as numbers. -/
def AssignedWord (w : Word) : Prop :=
  w.toNat / 16 = 0 ∧ (1 ≤ w.toNat % 16 ∧ w.toNat % 16 ≤ 6 ∨ 8 ≤ w.toNat % 16 ∧ w.toNat % 16 ≤ 10)

/-- The illegal words are those that the table does not assign (30_encoding R67). -/
theorem decode_illegal_iff_not_assigned (w : Word) :
    (∃ why, decode w = .illegal why) ↔ ¬AssignedWord w := by
  rw [decode_illegal, op_toNat, Ne, ← BitVec.toNat_inj, rsvd_toNat, AssignedWord, not_and_or]
  rfl

theorem AssignedWord.decodes {w : Word} (h : AssignedWord w) : ∃ i, decode w = .command i := by
  cases hd : decode w with
  | command i => exact ⟨i, rfl⟩
  | illegal why => exact absurd h ((decode_illegal_iff_not_assigned w).1 ⟨why, hd⟩)

/-! ### Acceptance -/

/-- A `CMD` write while IDLE is the acceptance of its word (30_encoding R68). -/
theorem hostWrite_cmd_idle (w : Word) {s : State} (hi : s.eng = .idle) (hr : s.rst = false) :
    hostWrite 0x0000#16 .w32 w s = accept w s :=
  (hostWrite_reg (r := .cmd) w hr rfl).trans (writeCmd_idle w hi)

/-- Settles O5: the write is an acceptance, and each field after it is one of acceptance's. -/
theorem acceptanceLatchesCommand : Obligations.AcceptanceLatchesCommand := by
  intro w s hi hr
  have hbusy : (statusWord (accept w s)).getLsbD 0 = true := by
    rw [statusWord_busy, busy_of_eng (accept_eng w s)]
  rw [hostWrite_cmd_idle w hi hr]
  exact ⟨rfl, rfl, rfl, rfl, rfl, hbusy, rfl, rfl, rfl, rfl, rfl, rfl, rfl, rfl, rfl, rfl, rfl, rfl⟩

/-- Settles O6: the write is a `CMD` write, which a BUSY engine drops. -/
theorem commandWriteWhileBusyIsDropped : Obligations.CommandWriteWhileBusyIsDropped :=
  fun w _ hb hr => (hostWrite_reg (r := .cmd) w hr rfl).trans (writeCmd_busy w hb)

/-! ### Execution -/

/-- On the engine's turn the step is the engine's move. -/
theorem step_engine {s : State} (h : engineTurn s = true) : step s = engineMove s := by
  simp [step, h]

theorem engineMove_command {s : State} {i : Instr} (h : decode s.lop = .command i) :
    engineMove s = exec i s := by
  simp [engineMove, fetchCommand, h]

theorem engineMove_illegal {s : State} (h : ∃ why, decode s.lop = .illegal why) :
    engineMove s = .next (commit (.err .illegalCmd .cmd) s) := by
  obtain ⟨why, hd⟩ := h
  simp [engineMove, fetchCommand, hd, commitIllegal]

/-- Settles O7: the step is the engine's move, which runs what the latched word decodes to. -/
theorem stepRunsDecodedCommand : Obligations.StepRunsDecodedCommand :=
  fun _ _ hturn hd => (step_engine hturn).trans (engineMove_command hd)

/-- After a command word is presented the engine moves next: no entry of the agenda precedes it. -/
theorem engineTurn_presentCommand (w : Word) (s : State) :
    engineTurn (presentCommand w s) = true := by
  cases h : s.agenda <;> simp [engineTurn, h, yieldHead, Input.yields]

theorem decodeTableWord_eq_some {nbits w : Nat} {i : Instr} :
    decodeTableWord nbits w = some i ↔ decode (tableWord nbits w) = .command i := by
  unfold decodeTableWord
  cases decode (tableWord nbits w) <;> simp

/-- Settles O8: the engine moves next, and its latched word is the one presented. -/
theorem presentedWordRunsNext : Obligations.PresentedWordRunsNext :=
  fun s _ _ i hd => stepRunsDecodedCommand _ i (engineTurn_presentCommand _ s)
    (decodeTableWord_eq_some.1 hd)

/-! ### Commit -/

theorem commitErr_endedWithError (c : ErrCode) (l : Layer) (s : State) :
    EndedWithError (commitErr c l s) c.code l.code :=
  ⟨rfl, rfl, rfl, rfl, rfl⟩

/-- Whatever its outcome, a commit changes nothing outside the results, the status and the engine
(30_encoding R71). -/
theorem commit_frame (r : Parsed Groups) (s : State) : CommitFrame s (commit r s) where
  lop := commit_lop r s
  loff := commit_loff r s
  llen := commit_llen r s
  larg := commit_larg r s
  cmdIgnored := commit_cmdIgnored r s
  writeIgnored := commit_writeIgnored r s
  accErr := commit_accErr r s
  irqEn := commit_irqEn r s
  inOff := commit_inOff r s
  inLen := commit_inLen r s
  classArg := commit_classArg r s
  bytes := byteAt_congr (commit_buf r s) (commit_resets r s)
  rst := commit_rst r s
  agenda := commit_agenda r s
  rdata := commit_rdata r s
  draws := commit_draws r s
  resets := commit_resets r s

/-- Settles O13: a command's next state is the commit of its outcome. -/
theorem commandFrame : Obligations.CommandFrame := by
  intro i s t h
  obtain rfl := exec_next h
  exact commit_frame _ s

/-- The engine executes an illegal word by committing ILLEGAL_CMD, and nothing else
(30_encoding R67). -/
theorem step_illegal {s : State} (hturn : engineTurn s = true)
    (h : ∃ why, decode s.lop = .illegal why) :
    ∃ t, step s = .next t ∧ EndedWithError t 4 7 ∧ CommitFrame s t :=
  ⟨_, (step_engine hturn).trans (engineMove_illegal h), commitErr_endedWithError .illegalCmd .cmd s,
    commit_frame _ s⟩

/-- Settles O4: each of the four conditions makes the decoder call the word illegal. -/
theorem illegalCommandCommitsError : Obligations.IllegalCommandCommitsError := by
  intro s w hw
  refine ⟨hostWrite_cmd_idle w, fun hturn hlop => step_illegal hturn ?_⟩
  rw [hlop, decode_illegal]
  rcases hw with hrsvd | hop | hop | hop
  · exact .inl hrsvd
  · exact .inr (by rw [hop]; decide)
  · exact .inr (by rw [hop]; decide)
  · exact .inr (by omega)

/-- Settles O3: a word is assigned, and then the encoding of the command it decodes to, or illegal. -/
theorem everyWordIsACommandOrIllegal : Obligations.EveryWordIsACommandOrIllegal := by
  refine fun w => ⟨fun s hi hr => ?_, fun hassigned => ?_, fun hnot s hturn hlop => ?_⟩
  · rw [hostWrite_cmd_idle w hi hr]
    exact ⟨rfl, rfl⟩
  · obtain ⟨i, hd⟩ := AssignedWord.decodes hassigned
    exact ⟨i, hd, ((decodeExactlyEncodedWords w i).1 hd).symm⟩
  · have hill : ∃ why, decode s.lop = .illegal why :=
      hlop ▸ (decode_illegal_iff_not_assigned w).2 hnot
    obtain ⟨t, hstep, hended, -⟩ := step_illegal hturn hill
    exact ⟨t, hstep, hended⟩

/-! ### The groups a command fills -/

/-- If the outcome is `Ok`, it fills one of the sets of groups that the family rules give
(10_state R20). -/
def FillsLegalGroups (r : Parsed Groups) : Prop :=
  ∀ g, r = .ok g → (Results.ofGroups g).valid.word ∈ legalValid

theorem fillsLegalGroups_err (c : ErrCode) (l : Layer) : FillsLegalGroups (.err c l) := nofun

/-- An `Ok` outcome whose `VALID` bits are `v`. -/
theorem fillsLegalGroups_ok {g : Groups} (v : Valid) (hv : (Results.ofGroups g).valid = v)
    (h : v.word ∈ legalValid) : FillsLegalGroups (.ok g) := by
  rintro _ ⟨⟩
  rwa [hv]

theorem cmdParseEth_fillsLegalGroups (B : Nat → Byte) (o n : Nat) :
    FillsLegalGroups (cmdParseEth B o n) := by
  unfold cmdParseEth
  split
  · exact fillsLegalGroups_err _ _
  · exact fillsLegalGroups_ok ⟨true, false, false, false, false, false⟩ rfl (by decide)

theorem cmdParseIpv4_fillsLegalGroups (B : Nat → Byte) (o n : Nat) :
    FillsLegalGroups (cmdParseIpv4 B o n) := by
  unfold cmdParseIpv4
  split
  · exact fillsLegalGroups_err _ _
  · exact fillsLegalGroups_ok ⟨false, true, false, false, false, false⟩ rfl (by decide)

theorem cmdParseTcp_fillsLegalGroups (B : Nat → Byte) (o n : Nat) :
    FillsLegalGroups (cmdParseTcp B o n) := by
  unfold cmdParseTcp
  split
  · exact fillsLegalGroups_err _ _
  · exact fillsLegalGroups_ok ⟨false, false, true, false, false, false⟩ rfl (by decide)

theorem cmdParseUdp_fillsLegalGroups (B : Nat → Byte) (o n : Nat) :
    FillsLegalGroups (cmdParseUdp B o n) := by
  unfold cmdParseUdp
  split
  · exact fillsLegalGroups_err _ _
  · exact fillsLegalGroups_ok ⟨false, false, false, true, false, false⟩ rfl (by decide)

theorem cmdParseIcmp_fillsLegalGroups (B : Nat → Byte) (o n : Nat) :
    FillsLegalGroups (cmdParseIcmp B o n) := by
  unfold cmdParseIcmp
  split
  · exact fillsLegalGroups_err _ _
  · exact fillsLegalGroups_ok ⟨false, false, false, false, true, false⟩ rfl (by decide)

/-- The transport layer adds at most one group to the two below it. -/
theorem parseTransport_fillsLegalGroups (B : Nat → Byte) (e : EthGroup) (i : IpGroup) :
    FillsLegalGroups (parseTransport B e i) := by
  cases hr : parseTransport B e i with
  | err c l => exact fillsLegalGroups_err c l
  | ok g =>
    rcases parseTransport_ok hr with ⟨none | m, rfl⟩ | ⟨t, -, rfl⟩ | ⟨u, -, rfl⟩
    · exact fillsLegalGroups_ok ⟨true, true, false, false, false, false⟩ rfl (by decide)
    · exact fillsLegalGroups_ok ⟨true, true, false, false, true, false⟩ rfl (by decide)
    · exact fillsLegalGroups_ok ⟨true, true, true, false, false, false⟩ rfl (by decide)
    · exact fillsLegalGroups_ok ⟨true, true, false, true, false, false⟩ rfl (by decide)

theorem cmdParseFrame_fillsLegalGroups (B : Nat → Byte) (o n : Nat) :
    FillsLegalGroups (cmdParseFrame B o n) := by
  rcases cmdParseFrame_cases B o n with
    ⟨c, l, h, -⟩ | ⟨e, -, ⟨-, h⟩ | ⟨-, ⟨c, l, -, h⟩ | ⟨i, -, h⟩⟩⟩ <;> rw [h]
  · exact fillsLegalGroups_err c l
  · exact fillsLegalGroups_ok ⟨true, false, false, false, false, false⟩ rfl (by decide)
  · exact fillsLegalGroups_err c l
  · exact parseTransport_fillsLegalGroups B e i

/-- The window check adds an error outcome only. -/
theorem onWindow_fillsLegalGroups {f : (Nat → Byte) → Nat → Nat → Parsed Groups}
    (hf : ∀ B o n, FillsLegalGroups (f B o n)) (s : State) : FillsLegalGroups (onWindow f s) := by
  unfold onWindow
  split
  · exact fillsLegalGroups_err _ _
  · exact hf _ _ _

theorem outcomeOf_fillsLegalGroups (i : Instr) (s : State) : FillsLegalGroups (outcomeOf i s) := by
  cases i with
  | parseEth => exact onWindow_fillsLegalGroups cmdParseEth_fillsLegalGroups s
  | parseIpv4 => exact onWindow_fillsLegalGroups cmdParseIpv4_fillsLegalGroups s
  | parseTcp => exact onWindow_fillsLegalGroups cmdParseTcp_fillsLegalGroups s
  | parseUdp => exact onWindow_fillsLegalGroups cmdParseUdp_fillsLegalGroups s
  | parseIcmp => exact onWindow_fillsLegalGroups cmdParseIcmp_fillsLegalGroups s
  | parseFrame => exact onWindow_fillsLegalGroups cmdParseFrame_fillsLegalGroups s
  | classifyEtype | classifyIpproto | classifyIcmptype =>
    exact fillsLegalGroups_ok ⟨false, false, false, false, false, true⟩ rfl (by decide)

theorem zero_validWord : Results.zero.valid.word = 0 := by decide

/-- Every commit leaves zero in the groups it does not mark valid (30_encoding R71). -/
theorem commit_zeroUnlessValid (r : Parsed Groups) (s : State) :
    ZeroUnlessValid (commit r s).results := by
  cases r with
  | ok g => exact ofGroups_zeroUnlessValid g
  | err c l => exact zero_zeroUnlessValid

/-- After a commit with an error nothing is valid (30_encoding R71). -/
theorem commit_validWord_of_err (r : Parsed Groups) (s : State) (h : (commit r s).err ≠ 0) :
    (commit r s).results.valid.word = 0 := by
  cases r with
  | ok g => exact absurd rfl h
  | err c l => exact zero_validWord

theorem commit_validWord_legal {r : Parsed Groups} (hr : FillsLegalGroups r) (s : State) :
    (commit r s).results.valid.word ∈ legalValid := by
  cases r with
  | ok g => exact hr g rfl
  | err c l => exact (by decide : Results.zero.valid.word ∈ legalValid)

/-- Settles O15: a command's next state is the commit of an outcome that fills legal groups. -/
theorem unfilledGroupsAreZero : Obligations.UnfilledGroupsAreZero := by
  intro i s t h
  obtain rfl := exec_next h
  exact ⟨commit_zeroUnlessValid _ s, commit_validWord_of_err _ s,
    commit_validWord_legal (outcomeOf_fillsLegalGroups i s) s, commit_done _ s, commit_eng _ s⟩

/-! ### The loop `wait` -/

theorem outsideMove_wait {s : State} {late : Bool} {polls : Nat} {rest : List Input}
    (h : s.agenda = ⟨late, .wait polls⟩ :: rest) :
    outsideMove s = pollStatus late polls { s with agenda := rest } := by
  simp [outsideMove, h, perform]

/-- Before a `wait` with no poll left a command in flight commits (log entry 14). -/
theorem engineTurn_wait_zero {s : State} {late : Bool} {rest : List Input} (hb : s.eng = .busy)
    (h : s.agenda = ⟨late, .wait 0⟩ :: rest) : engineTurn s = true := by
  simp [engineTurn, h, busy_of_eng hb, Input.yields]

/-- A poll that finds BUSY reads `STATUS` and is put back with one poll less. -/
theorem pollStatus_busy (late : Bool) (polls : Nat) {s : State} (hr : s.rst = false)
    (hb : s.eng = .busy) : pollStatus late polls s =
      { s with rdata := statusWord s, agenda := ⟨late, .wait (polls - 1)⟩ :: s.agenda } := by
  simp [pollStatus_eq, hr, busy_of_eng hb]

/-- A poll that finds the engine IDLE reads `STATUS` and is done. -/
theorem pollStatus_idle (late : Bool) (polls : Nat) {s : State} (hr : s.rst = false)
    (hi : s.eng = .idle) : pollStatus late polls s = { s with rdata := statusWord s } := by
  simp [pollStatus_eq, hr, busy_of_idle hi]

/-- Settles O51: the step is one poll, which reads `STATUS`, whose bit 0 is BUSY. -/
theorem waitEndsWhenIdle : Obligations.WaitEndsWhenIdle := by
  intro s t late polls rest hag hturn hr h
  obtain rfl := Host.Outcome.next.inj ((step_outside hturn).symm.trans h)
  rw [outsideMove_wait hag]
  refine ⟨fun hb => ?_, fun hi => ?_⟩
  · have hpolls : polls ≠ 0 := by
      rintro rfl
      rw [engineTurn_wait_zero hb hag] at hturn
      cases hturn
    rw [pollStatus_busy (s := { s with agenda := rest }) late polls hr hb]
    exact ⟨Nat.pos_of_ne_zero hpolls, rfl, (statusWord_busy s).trans (busy_of_eng hb)⟩
  · rw [pollStatus_idle (s := { s with agenda := rest }) late polls hr hi]
    exact ⟨rfl, (statusWord_busy s).trans (busy_of_idle hi), rfl⟩

/-! ### The accesses of a host program -/

/-- `wrb` is one write for each byte (30_encoding R82). -/
theorem byteWrites_length (off : Nat) (bytes : List Byte) :
    (byteWrites off bytes).length = bytes.length := by
  induction bytes generalizing off with
  | nil => rfl
  | cons b bs ih => rw [byteWrites, List.length_cons, List.length_cons, ih]

/-- The `i`-th write of `wrb` stores the `i`-th byte, `i` past the first one's address. -/
theorem byteWrites_getElem? {off i : Nat} {bytes : List Byte} {b : Byte} (h : bytes[i]? = some b) :
    (byteWrites off bytes)[i]? =
      some (.access (.write (busAddr (bufBase + off + i)) .w8 (b.setWidth 32))) := by
  induction bytes generalizing off i with
  | nil => cases h
  | cons c cs ih =>
    cases i with
    | zero => cases h; rfl
    | succ i =>
      have hoff : bufBase + (off + 1) + i = bufBase + off + (i + 1) := by omega
      rw [byteWrites, List.getElem?_cons_succ, ih h, hoff]

/-- `wr` and `rd` of a list of registers and their addresses (20_memory R51, 30_encoding R82). -/
theorem wr_rd_actions {l : List (Reg × HostAddr)} (hl : ∀ p ∈ l, busAddr p.1.addr = p.2) :
    ∀ p ∈ l, (∀ v : Word, (HostOp.wr p.1 v).actions = [.access (.write p.2 .w32 v)]) ∧
      (HostOp.rd p.1).actions = [.access (.read p.2 .w32)] := by
  intro p hp
  rw [← hl p hp]
  exact ⟨fun _ => rfl, rfl⟩

/-- `cmd` of a list of commands and their words (30_encoding R66, R82). -/
theorem cmd_actions {l : List (Instr × Word)} (hl : ∀ p ∈ l, encode p.1 = p.2) :
    ∀ p ∈ l, (HostOp.cmd p.1).actions = [.access (.write 0x0000#16 .w32 p.2)] := by
  intro p hp
  rw [← hl p hp]
  rfl

/-- One round of `wait` is one read of `STATUS`, and the loop goes round if bit 0 is set (30_encoding
R83). -/
theorem perform_wait (late : Bool) (polls : Nat) (s : State) :
    perform ⟨late, .wait polls⟩ s = { hostRead statusAddr .w32 s with
      agenda := if (hostRead statusAddr .w32 s).rdata.getLsbD 0 then
        ⟨late, .wait (polls - 1)⟩ :: s.agenda else s.agenda } := by
  simp only [perform, pollStatus, ← hostRead_agenda statusAddr .w32 s]
  split <;> rfl

/-- Settles O54: the registers' addresses and the commands' words are the tables'; `wrb` is by induction
on its bytes. -/
theorem hostNotation : Obligations.HostNotation :=
  ⟨wr_rd_actions (by decide),
    fun off bytes => ⟨byteWrites_length off bytes, fun _ _ => byteWrites_getElem?⟩,
    fun _ _ => rfl, cmd_actions (by decide), rfl, fun _ => rfl, perform_wait⟩

end Sys2Proof.Machine

/-! The statements about the EtherType classifier (41_ethertype.md): the class of every value, what the
parameter `ETYPE_TABLE` can hold, and the result of CLASSIFY_ETYPE. -/

namespace Sys2Proof.Machine

/-! ### The parameter `ETYPE_TABLE` -/

theorem etypeDomain_iff (v : BitVec 16) : Config.etypeDomain v = true ↔
    1536 ≤ v.toNat ∧ v ≠ 0x0800 ∧ v ≠ 0x0806 ∧ v ≠ 0x8100 ∧ v ≠ 0x86DD := by
  simp [Config.etypeDomain, and_assoc]

/-- The entries of a restricted table are those of the table that 41_ethertype R85 allows. -/
theorem restrictEtypeTable_eq_some (t : Config.EtypeTable) (v : BitVec 16) (c : BitVec 8) :
    Config.restrictEtypeTable t v = some c ↔
      Config.etypeDomain v = true ∧ t v = some c ∧ 7 ≤ c.toNat ∧ c.toNat ≤ 254 := by
  refine ⟨restrictEtypeTable_some t v c, fun ⟨hdomain, hentry, hcode⟩ => ?_⟩
  simp [Config.restrictEtypeTable, hdomain, hentry, Option.filter_some, Config.etypeCodeLegal, hcode]

/-- A table whose entries are all ones that 41_ethertype R85 allows is its own restriction. -/
theorem restrictEtypeTable_of_legal {t : Config.EtypeTable}
    (ht : ∀ v c, t v = some c → Config.etypeDomain v = true ∧ 7 ≤ c.toNat ∧ c.toNat ≤ 254) :
    Config.restrictEtypeTable t = t := by
  funext v
  apply Option.ext
  intro c
  rw [restrictEtypeTable_eq_some]
  refine ⟨fun ⟨_, hentry, _⟩ => hentry, fun hentry => ?_⟩
  obtain ⟨hdomain, hcode⟩ := ht v c hentry
  exact ⟨hdomain, hentry, hcode⟩

/-! ### The classifier -/

section Classifier
variable (table : Config.EtypeTable) {v : BitVec 16}

/-- The class LENGTH (41_ethertype R85). -/
theorem classifyEtherType_length (h : v.toNat ≤ 1500) : classifyEtherType table v = 1 :=
  if_pos h

/-- The class UNDEFINED (41_ethertype R85). -/
theorem classifyEtherType_between (hlo : 1501 ≤ v.toNat) (hhi : v.toNat ≤ 1535) :
    classifyEtherType table v = 2 := by
  rw [classifyEtherType, if_neg (by omega), if_pos hhi]

theorem classifyEtherType_ipv4 (h : v = 0x0800) : classifyEtherType table v = 3 := h ▸ rfl
theorem classifyEtherType_arp (h : v = 0x0806) : classifyEtherType table v = 4 := h ▸ rfl
theorem classifyEtherType_vlan (h : v = 0x8100) : classifyEtherType table v = 5 := h ▸ rfl
theorem classifyEtherType_ipv6 (h : v = 0x86DD) : classifyEtherType table v = 6 := h ▸ rfl

/-- Inside the domain of `ETYPE_TABLE` the table decides, and a value without an entry has class 0. -/
theorem classifyEtherType_domain (h : Config.etypeDomain v = true) :
    classifyEtherType table v = (table v).getD 0 := by
  obtain ⟨hlo, hne1, hne2, hne3, hne4⟩ := (etypeDomain_iff v).1 h
  rw [classifyEtherType, if_neg (by omega), if_neg (by omega)]
  refine (if_neg hne1).trans <| (if_neg hne2).trans <| (if_neg hne3).trans <| (if_neg hne4).trans ?_
  cases table v <;> rfl

/-- Outside the domain of `ETYPE_TABLE` the class is a code that 41_ethertype R85 fixes, at most 6. -/
theorem classifyEtherType_le_six (h : Config.etypeDomain v = false) :
    (classifyEtherType table v).toNat ≤ 6 := by
  by_cases hlen : v.toNat ≤ 1500
  · rw [classifyEtherType_length table hlen]; decide
  by_cases hbetween : v.toNat ≤ 1535
  · rw [classifyEtherType_between table (by omega) hbetween]; decide
  have hcode : v = 0x0800 ∨ v = 0x0806 ∨ v = 0x8100 ∨ v = 0x86DD := by
    by_contra hne
    push Not at hne
    exact Bool.eq_false_iff.1 h ((etypeDomain_iff v).2 ⟨by omega, hne⟩)
  rcases hcode with hv | hv | hv | hv
  · rw [classifyEtherType_ipv4 table hv]; decide
  · rw [classifyEtherType_arp table hv]; decide
  · rw [classifyEtherType_vlan table hv]; decide
  · rw [classifyEtherType_ipv6 table hv]; decide

end Classifier

/-- A class under a restricted table is a fixed code, at most 6, or an entry, at most 254. -/
theorem classifyEtherType_restrict_le (t : Config.EtypeTable) (v : BitVec 16) :
    (classifyEtherType (Config.restrictEtypeTable t) v).toNat ≤ 254 := by
  cases hdomain : Config.etypeDomain v with
  | false => exact (classifyEtherType_le_six _ hdomain).trans (by decide)
  | true =>
    rw [classifyEtherType_domain _ hdomain]
    cases hentry : Config.restrictEtypeTable t v with
    | none => decide
    | some c =>
      obtain ⟨-, -, -, hcode⟩ := restrictEtypeTable_some t v c hentry
      exact hcode

/-- Settles O25: the restriction keeps the allowed entries and no others, and a class is a fixed code or
an entry. -/
theorem etypeTableMeetsItsDomain : Obligations.EtypeTableMeetsItsDomain := by
  refine ⟨⟨Config.etypeChoice, rfl⟩, fun m v c h => ?_, fun m hlegal => ?_, fun m v h255 => ?_⟩
  · obtain ⟨hdomain, -, hcode⟩ := restrictEtypeTable_some m v c h
    obtain ⟨hlo, hne1, hne2, hne3, hne4⟩ := (etypeDomain_iff v).1 hdomain
    exact ⟨hlo, hne1, hne2, hne3, hne4, hcode⟩
  · refine restrictEtypeTable_of_legal fun v c h => ?_
    obtain ⟨hlo, hne1, hne2, hne3, hne4, hcode⟩ := hlegal v c h
    exact ⟨(etypeDomain_iff v).2 ⟨hlo, hne1, hne2, hne3, hne4⟩, hcode⟩
  · have hle := classifyEtherType_restrict_le m v
    rw [h255] at hle
    exact absurd hle (by decide)

/-! ### CLASSIFY_ETYPE -/

/-- An `Ok` outcome ends its command well, with the `VALID` word of the groups it fills
(30_encoding R71). -/
theorem commitOk_endedWell (g : Groups) (s : State) :
    EndedWell (commitOk g s) (Results.ofGroups g).valid.word :=
  ⟨rfl, rfl, rfl, ofGroups_zeroUnlessValid g, rfl, rfl⟩

/-- The outcome of a classify command fills the group of `CLASS_RES` and no other. -/
theorem classGroup_validWord (c : BitVec 8) :
    (Results.ofGroups { cls := some c }).valid.word = 0x20 := by
  change (Valid.mk false false false false false true).word = 0x20
  decide

/-- CLASSIFY_ETYPE commits the class of the latched argument, and nothing else (41_ethertype R86). -/
theorem exec_classifyEtype (s : State) : exec .classifyEtype s =
    .next (commitOk { cls := some (classifyEtherType Config.etypeTable s.larg) } s) :=
  exec_eq .classifyEtype s

/-- Settles O24: the command commits the class of its argument, which the classifier's own laws give. -/
theorem classifyEtypeResult : Obligations.ClassifyEtypeResult := by
  refine ⟨decode_encode .classifyEtype, fun s => ⟨_, exec_classifyEtype s, ?_, ?_⟩⟩
  · rw [← classGroup_validWord]
    exact commitOk_endedWell _ s
  · exact ⟨classifyEtherType_length _, classifyEtherType_between _, classifyEtherType_ipv4 _,
      classifyEtherType_arp _, classifyEtherType_vlan _, classifyEtherType_ipv6 _,
      fun hlo hne1 hne2 hne3 hne4 =>
        classifyEtherType_domain _ ((etypeDomain_iff _).2 ⟨hlo, hne1, hne2, hne3, hne4⟩)⟩

end Sys2Proof.Machine

/-! The statement about the Ethernet parser (42_ethernet.md): the outcome of PARSE_ETH on every window. -/

namespace Sys2Proof.Machine

/-- A parse command whose window does not fit ends with BAD_WINDOW in layer CMD (30_encoding R70). -/
theorem commit_onWindow_badWindow (f : (Nat → Byte) → Nat → Nat → Parsed Groups) {s : State}
    (h : ¬WindowFits s) : EndedWithError (commit (onWindow f s) s) 3 7 := by
  rw [onWindow_exceeds h]
  exact commitErr_endedWithError .badWindow .cmd s

/-! ### `ParseEth` -/

/-- The tag's type is 0x8100 iff its two bytes are 0x81 and 0x00 (30_encoding R73). -/
theorem memRead16_eq_vlanTag (B : Nat → Byte) (a : Nat) :
    memRead16 B a = 0x8100#16 ↔ B a = 0x81#8 ∧ B (a + 1) = 0x00#8 := by
  constructor
  · intro h
    have hhigh := congrArg (BitVec.extractLsb' 8 8) h
    have hlow := congrArg (BitVec.extractLsb' 0 8) h
    rw [memRead16, BitVec.extractLsb'_append_eq_left] at hhigh
    rw [memRead16, BitVec.extractLsb'_append_eq_right] at hlow
    exact ⟨hhigh, hlow⟩
  · rintro ⟨hhigh, hlow⟩
    rw [memRead16, hhigh, hlow]
    rfl

section Windows
variable {B : Nat → Byte} {o n : Nat}

theorem parseEth_short (hn : n < 14) : parseEth B o n = .err .truncatedHeader .eth :=
  if_pos hn

theorem parseEth_tagged_short (hlo : 14 ≤ n) (hhi : n < 18)
    (htag : memRead16 B (o + 12) = 0x8100#16) : parseEth B o n = .err .truncatedHeader .eth := by
  rw [parseEth, if_neg (by omega), if_pos htag, if_pos hhi]

theorem parseEth_untagged (hn : 14 ≤ n) (htag : memRead16 B (o + 12) ≠ 0x8100#16) :
    parseEth B o n = .ok (ethRecord B o n false (memRead16 B (o + 12)) 14) := by
  rw [parseEth, if_neg (by omega), if_neg htag]

theorem parseEth_tagged (hn : 18 ≤ n) (htag : memRead16 B (o + 12) = 0x8100#16) :
    parseEth B o n = .ok (ethRecord B o n true (memRead16 B (o + 16)) 18) := by
  rw [parseEth, if_neg (by omega), if_pos htag, if_neg (by omega)]

/-- The record holds the fields of its window: the frame length and the payload descriptor of a window
that fits the buffer fit their registers (00_scope R7). -/
theorem ethRecord_fields (hfit : o + n ≤ Config.bufSize) (vlan : Bool) (et : BitVec 16) {hl : Nat}
    (hhl : hl ≤ n) : EthFields B o n vlan et hl (ethRecord B o n vlan et hl) where
  dstHi := rfl
  dstLo := rfl
  srcHi := rfl
  srcLo := rfl
  ethertype := rfl
  etypeClass := rfl
  vlanPresent := rfl
  frameLen := toReg_toNat (by omega)
  payOff := toReg_toNat (by omega)
  payLen := toReg_toNat (by omega)

end Windows

/-! ### PARSE_ETH -/

/-- PARSE_ETH fills the Ethernet group and no other. -/
theorem ethGroup_validWord (e : EthGroup) : (Results.ofGroups { eth := some e }).valid.word = 0x01 := by
  change (Valid.mk true false false false false false).word = 0x01
  decide

section Outcome
variable {s : State} (hfit : WindowFits s)
include hfit

/-- On a window that fits, PARSE_ETH ends with `ParseEth`'s error (42_ethernet R89). -/
theorem commit_parseEth_err {c : ErrCode} {l : Layer}
    (h : parseEth (byteAt s) s.loff.toNat s.llen.toNat = .err c l) :
    EndedWithError (commit (outcomeOf .parseEth s) s) c.code l.code := by
  rw [outcomeOf, onWindow_fits hfit, cmdParseEth, h]
  exact commitErr_endedWithError c l s

/-- On a window that fits, PARSE_ETH ends well with `ParseEth`'s record, which holds the fields of the
window (42_ethernet R88, R89). -/
theorem commit_parseEth_ok {vlan : Bool} {et : BitVec 16} {hl : Nat} (hhl : hl ≤ s.llen.toNat)
    (h : parseEth (byteAt s) s.loff.toNat s.llen.toNat =
      .ok (ethRecord (byteAt s) s.loff.toNat s.llen.toNat vlan et hl)) :
    EndedWell (commit (outcomeOf .parseEth s) s) 0x01 ∧
      EthFields (byteAt s) s.loff.toNat s.llen.toNat vlan et hl
        (commit (outcomeOf .parseEth s) s).results.eth := by
  rw [outcomeOf, onWindow_fits hfit, cmdParseEth, h]
  refine ⟨?_, ethRecord_fields hfit vlan et hhl⟩
  rw [← ethGroup_validWord]
  exact commitOk_endedWell _ s

end Outcome

/-- Settles O17: the command commits what `ParseEth` answers in each of its four cases, whose test of the
tag is the statement's test of bytes 12 and 13. -/
theorem parseEthDecodes : Obligations.ParseEthDecodes := by
  intro s B o n tagged
  have htag : memRead16 B (o + 12) = 0x8100#16 ↔ tagged := memRead16_eq_vlanTag B (o + 12)
  refine ⟨_, exec_eq .parseEth s, commit_onWindow_badWindow _, fun hfit hn => ?_,
    fun hfit hlo hhi ht => ?_, fun hfit hn ht => ?_, fun hfit hn ht => ?_⟩
  · exact commit_parseEth_err hfit (parseEth_short hn)
  · exact commit_parseEth_err hfit (parseEth_tagged_short hlo hhi (htag.2 ht))
  · exact commit_parseEth_ok hfit hn (parseEth_untagged hn (mt htag.1 ht))
  · exact commit_parseEth_ok hfit hn (parseEth_tagged hn (htag.2 ht))

end Sys2Proof.Machine

/-! The statements about IPv4 (43_ipv4.md): the outcome of PARSE_IPV4 on every window, and the class that
CLASSIFY_IPPROTO gives. -/

namespace Sys2Proof.Machine

/-! ### Fields of a header as numbers -/

/-- A field of `len` bits from bit `lo` up, as a number. -/
theorem extract_toNat {w : Nat} (x : BitVec w) (lo len : Nat) :
    (x.extractLsb' lo len).toNat = x.toNat / 2 ^ lo % 2 ^ len := by
  rw [BitVec.extractLsb'_toNat, Nat.shiftRight_eq_div_pow]

/-- Two bytes read big-endian, as a number (20_memory R58). -/
theorem memRead16_toNat (B : Nat → Byte) (a : Nat) :
    (memRead16 B a).toNat = (B a).toNat * 256 + (B (a + 1)).toNat := by
  rw [memRead16, BitVec.toNat_append, ← Nat.shiftLeft_add_eq_or_of_lt (B (a + 1)).isLt,
    Nat.shiftLeft_eq]

theorem ihlOf_eq (B : Nat → Byte) (o : Nat) : ihlOf B o = (B o).toNat % 16 * 4 := by
  rw [ihlOf, extract_toNat, memRead8, Nat.add_zero, Nat.pow_zero, Nat.div_one]
  rfl

theorem totalLenOf_eq (B : Nat → Byte) (o : Nat) :
    totalLenOf B o = (B (o + 2)).toNat * 256 + (B (o + 3)).toNat :=
  memRead16_toNat B (o + 2)

/-! ### `ParseIPv4`

One equation per check of 43_ipv4 R96, in its order: the checks before it have passed. -/

section Windows
variable {B : Nat → Byte} {o n : Nat}

theorem parseIpv4_short (hn : n < 20) : parseIpv4 B o n = .err .truncatedHeader .ipv4 :=
  if_pos hn

theorem parseIpv4_ihl_below_20 (hn : 20 ≤ n) (hihl : ihlOf B o < 20) :
    parseIpv4 B o n = .err .invalidHeaderLength .ipv4 := by
  rw [parseIpv4, if_neg hn.not_gt, if_pos hihl]

theorem parseIpv4_ihl_above_window (hn : 20 ≤ n) (hihl : 20 ≤ ihlOf B o) (hcut : n < ihlOf B o) :
    parseIpv4 B o n = .err .truncatedHeader .ipv4 := by
  rw [parseIpv4, if_neg hn.not_gt, if_neg hihl.not_gt, if_pos hcut]

theorem parseIpv4_totalLen_below_ihl (hn : 20 ≤ n) (hihl : 20 ≤ ihlOf B o) (hin : ihlOf B o ≤ n)
    (htl : totalLenOf B o < ihlOf B o) : parseIpv4 B o n = .err .invalidHeaderLength .ipv4 := by
  rw [parseIpv4, if_neg hn.not_gt, if_neg hihl.not_gt, if_neg hin.not_gt, if_pos htl]

theorem parseIpv4_totalLen_above_window (hn : 20 ≤ n) (hihl : 20 ≤ ihlOf B o) (hin : ihlOf B o ≤ n)
    (htl : ihlOf B o ≤ totalLenOf B o) (hcut : n < totalLenOf B o) :
    parseIpv4 B o n = .err .truncatedHeader .ipv4 := by
  rw [parseIpv4, if_neg hn.not_gt, if_neg hihl.not_gt, if_neg hin.not_gt, if_neg htl.not_gt,
    if_pos hcut]

theorem parseIpv4_accepts (hihl : 20 ≤ ihlOf B o) (htl : ihlOf B o ≤ totalLenOf B o)
    (hin : totalLenOf B o ≤ n) : parseIpv4 B o n = .ok (ipRecord B o) := by
  have hihlIn : ihlOf B o ≤ n := htl.trans hin
  rw [parseIpv4, if_neg (hihl.trans hihlIn).not_gt, if_neg hihl.not_gt, if_neg hihlIn.not_gt,
    if_neg htl.not_gt, if_neg hin.not_gt]

/-- The record holds the fields of its window: the header length is at most 60, so it fits its six bits,
and the descriptors lie in the buffer, so they fit their registers (00_scope R7). -/
theorem ipRecord_fields (hfit : o + n ≤ Config.bufSize) (hihl : 20 ≤ ihlOf B o)
    (htl : ihlOf B o ≤ totalLenOf B o) (hin : totalLenOf B o ≤ n) :
    IpFields B o (ihlOf B o) (totalLenOf B o) (ipRecord B o) where
  version := by
    simp only [ipRecord, extract_toNat, memRead8, Nat.add_zero]
    omega
  ihlBytes := by
    have := ihlOf_le B o
    simp only [ipRecord, BitVec.toNat_ofNat]
    omega
  dscp := by
    simp only [ipRecord, extract_toNat, memRead8]
    omega
  ecn := by
    simp only [ipRecord, extract_toNat, memRead8]
    omega
  totalLen := rfl
  ident := rfl
  flags := by
    simp only [ipRecord, extract_toNat, memRead16_toNat]
    omega
  fragOff := by
    have hword : (memRead16 B (o + 6)).toNat = (B (o + 6)).toNat * 256 + (B (o + 7)).toNat :=
      memRead16_toNat B (o + 6)
    simp only [ipRecord, extract_toNat, hword]
    omega
  ttl := rfl
  proto := rfl
  hdrCsum := rfl
  protoClass := rfl
  optPresent := rfl
  src := rfl
  dst := rfl
  options h := by
    simp only [ipRecord, if_pos h]
    exact ⟨toReg_toNat (by omega), toReg_toNat (by omega)⟩
  noOptions h := by
    simp only [ipRecord, h, lt_irrefl, if_false, and_self]
  payOff := toReg_toNat (by omega)
  payLen := toReg_toNat (by omega)

end Windows

/-! ### PARSE_IPV4 -/

/-- PARSE_IPV4 fills the IPv4 group and no other. -/
theorem ipGroup_validWord (i : IpGroup) : (Results.ofGroups { ip := some i }).valid.word = 0x02 := by
  change (Valid.mk false true false false false false).word = 0x02
  decide

section Outcome
variable {f : (Nat → Byte) → Nat → Nat → Parsed Groups} {s : State} (hfit : WindowFits s)
include hfit

/-- On a window that fits, a parse command ends with its function's error (30_encoding R70, R71). -/
theorem commit_onWindow_err {c : ErrCode} {l : Layer}
    (h : f (byteAt s) s.loff.toNat s.llen.toNat = .err c l) :
    EndedWithError (commit (onWindow f s) s) c.code l.code := by
  rw [onWindow_fits hfit, h]
  exact commitErr_endedWithError c l s

/-- On a window that fits, a parse command ends well with the groups its function returns
(30_encoding R70, R71). -/
theorem commit_onWindow_ok {g : Groups} (h : f (byteAt s) s.loff.toNat s.llen.toNat = .ok g) :
    EndedWell (commit (onWindow f s) s) (Results.ofGroups g).valid.word ∧
      (commit (onWindow f s) s).results = Results.ofGroups g := by
  rw [onWindow_fits hfit, h]
  exact ⟨commitOk_endedWell g s, rfl⟩

/-- On a window that fits, PARSE_IPV4 ends with `ParseIPv4`'s error (43_ipv4 R94). -/
theorem commit_parseIpv4_err {c : ErrCode} {l : Layer}
    (h : parseIpv4 (byteAt s) s.loff.toNat s.llen.toNat = .err c l) :
    EndedWithError (commit (outcomeOf .parseIpv4 s) s) c.code l.code :=
  commit_onWindow_err hfit (by rw [cmdParseIpv4, h])

/-- On a window that fits, PARSE_IPV4 ends well with `ParseIPv4`'s record in the IPv4 group, and no other
group is valid (43_ipv4 R94). -/
theorem commit_parseIpv4_ok {i : IpGroup}
    (h : parseIpv4 (byteAt s) s.loff.toNat s.llen.toNat = .ok i) :
    EndedWell (commit (outcomeOf .parseIpv4 s) s) 0x02 ∧
      (commit (outcomeOf .parseIpv4 s) s).results.ip = i := by
  have hcmd : cmdParseIpv4 (byteAt s) s.loff.toNat s.llen.toNat = .ok { ip := some i } := by
    rw [cmdParseIpv4, h]
  obtain ⟨hwell, hresults⟩ := commit_onWindow_ok hfit hcmd
  exact ⟨ipGroup_validWord i ▸ hwell, congrArg Results.ip hresults⟩

end Outcome

/-- Settles O18: the command commits what `ParseIPv4` answers at the first check that fails, or the record
when all pass; the lengths that the checks read are the statement's, byte by byte. -/
theorem parseIpv4Decodes : Obligations.ParseIpv4Decodes := by
  intro s B o n ihl tl
  have hihlOf : ihlOf B o = ihl := ihlOf_eq B o
  have htotalLenOf : totalLenOf B o = tl := totalLenOf_eq B o
  rw [← hihlOf, ← htotalLenOf]
  refine ⟨_, exec_eq .parseIpv4 s, commit_onWindow_badWindow _, fun hfit hn => ?_,
    fun hfit hn hihl => ?_, fun hfit hn hihl hcut => ?_, fun hfit hn hihl hin htl => ?_,
    fun hfit hn hihl hin htl hcut => ?_, fun hfit hihl htl hin => ?_⟩
  · exact commit_parseIpv4_err hfit (parseIpv4_short hn)
  · exact commit_parseIpv4_err hfit (parseIpv4_ihl_below_20 hn hihl)
  · exact commit_parseIpv4_err hfit (parseIpv4_ihl_above_window hn hihl hcut)
  · exact commit_parseIpv4_err hfit (parseIpv4_totalLen_below_ihl hn hihl hin htl)
  · exact commit_parseIpv4_err hfit (parseIpv4_totalLen_above_window hn hihl hin htl hcut)
  · obtain ⟨hwell, hip⟩ := commit_parseIpv4_ok hfit (parseIpv4_accepts hihl htl hin)
    rw [hip]
    exact ⟨hwell, ipRecord_fields hfit hihl htl hin⟩

/-! ### CLASSIFY_IPPROTO -/

/-- The table of `ClassifyIPProto` (43_ipv4 R93): the protocol numbers that have a class, and the class. -/
def ipProtoTable : List (Nat × Nat) := [(1, 1), (2, 2), (6, 3), (17, 4), (41, 5), (89, 6), (132, 7)]

/-- `ClassifyIPProto` looks its argument up in the table; a number without an entry has class 0
(43_ipv4 R93). -/
theorem classifyIpProto_toNat (p : BitVec 8) :
    (classifyIpProto p).toNat = (ipProtoTable.lookup p.toNat).getD 0 := by
  unfold classifyIpProto
  split
  case h_8 =>
    have hnone : ipProtoTable.lookup p.toNat = none := by
      simp_all [List.lookup_eq_none_iff, ipProtoTable]
    rw [hnone]; rfl
  all_goals next hp => rw [hp]; rfl

/-- The byte operand is bits 7:0 of the latched argument (30_encoding R81). -/
theorem byteOperand_toNat (s : State) : (byteOperand s).toNat = s.larg.toNat % 256 := by
  rw [byteOperand, extract_toNat, Nat.pow_zero, Nat.div_one]
  rfl

/-- CLASSIFY_IPPROTO commits the class of its byte operand, and nothing else (43_ipv4 R95). -/
theorem exec_classifyIpproto (s : State) : exec .classifyIpproto s =
    .next (commitOk { cls := some ((classifyIpProto (byteOperand s)).setWidth 8) } s) :=
  exec_eq .classifyIpproto s

/-- Settles O26: the command commits the class of its byte operand, and a class of four bits is itself in
the eight bits of `CLASS_RES`. -/
theorem classifyIpprotoResult : Obligations.ClassifyIpprotoResult := by
  refine ⟨decode_encode .classifyIpproto, fun s => ⟨_, exec_classifyIpproto s, ?_, ?_⟩⟩
  · rw [← classGroup_validWord]
    exact commitOk_endedWell _ s
  · change ((classifyIpProto (byteOperand s)).setWidth 8).toNat = _
    rw [BitVec.toNat_setWidth_of_le (by decide), classifyIpProto_toNat, byteOperand_toNat]
    rfl

end Sys2Proof.Machine

/-! The statement about TCP (44_tcp.md): the outcome of PARSE_TCP on every window. -/

namespace Sys2Proof.Machine

/-! ### `ParseTCP`

The data offset as a number, then one equation per check of 44_tcp R98, in its order: the checks before it
have passed. -/

/-- The data offset is the high nibble of byte 12 (30_encoding R75). -/
theorem dataOffOf_toNat (B : Nat → Byte) (o : Nat) :
    (dataOffOf B o).toNat = (B (o + 12)).toNat / 16 := by
  rw [dataOffOf, extract_toNat, memRead8]
  exact Nat.mod_eq_of_lt (Nat.div_lt_of_lt_mul (B (o + 12)).isLt)

section Windows
variable {B : Nat → Byte} {o n : Nat}

theorem parseTcp_short (hn : n < 20) : parseTcp B o n = .err .truncatedHeader .tcp :=
  if_pos hn

theorem parseTcp_dataOff_below_5 (hn : 20 ≤ n) (hoff : (dataOffOf B o).toNat < 5) :
    parseTcp B o n = .err .invalidHeaderLength .tcp := by
  rw [parseTcp, if_neg hn.not_gt, if_pos hoff]

theorem parseTcp_hdrLen_above_window (hn : 20 ≤ n) (hoff : 5 ≤ (dataOffOf B o).toNat)
    (hcut : n < tcpHdrLenOf B o) : parseTcp B o n = .err .truncatedHeader .tcp := by
  rw [parseTcp, if_neg hn.not_gt, if_neg hoff.not_gt, if_pos hcut]

theorem parseTcp_accepts (hoff : 5 ≤ (dataOffOf B o).toNat) (hin : tcpHdrLenOf B o ≤ n) :
    parseTcp B o n = .ok (tcpRecord B o n) := by
  have hn : 20 ≤ n := (Nat.mul_le_mul_right 4 hoff).trans hin
  rw [parseTcp, if_neg hn.not_gt, if_neg hoff.not_gt, if_neg hin.not_gt]

/-- The record holds the fields of its window: the header length is at most 60, so it fits its six bits,
and the payload lies in the buffer, so its descriptor fits its registers (00_scope R7). -/
theorem tcpRecord_fields (hfit : o + n ≤ Config.bufSize) (hin : tcpHdrLenOf B o ≤ n) :
    TcpFields B o n (tcpHdrLenOf B o) (tcpRecord B o n) where
  srcPort := rfl
  dstPort := rfl
  seqNum := rfl
  ackNum := rfl
  flags := rfl
  ns := by
    simp only [tcpRecord, extract_toNat, memRead8, Nat.pow_zero, Nat.div_one, Nat.pow_one]
  optPresent := rfl
  dataOff := dataOffOf_toNat B o
  hdrLen := by
    have hle : tcpHdrLenOf B o ≤ 60 := tcpHdrLenOf_le B o
    simp only [tcpRecord, BitVec.toNat_ofNat]
    omega
  window := rfl
  csum := rfl
  urgPtr := rfl
  payOff := toReg_toNat (by omega)
  payLen := toReg_toNat (by omega)

end Windows

/-! ### PARSE_TCP -/

/-- PARSE_TCP fills the TCP group and no other. -/
theorem tcpGroup_validWord (t : TcpGroup) : (Results.ofGroups { tcp := some t }).valid.word = 0x04 := by
  change (Valid.mk false false true false false false).word = 0x04
  decide

section Outcome
variable {s : State} (hfit : WindowFits s)
include hfit

/-- On a window that fits, PARSE_TCP ends with `ParseTCP`'s error (44_tcp R99). -/
theorem commit_parseTcp_err {c : ErrCode} {l : Layer}
    (h : parseTcp (byteAt s) s.loff.toNat s.llen.toNat = .err c l) :
    EndedWithError (commit (outcomeOf .parseTcp s) s) c.code l.code :=
  commit_onWindow_err hfit (by rw [cmdParseTcp, h])

/-- On a window that fits, PARSE_TCP ends well with `ParseTCP`'s record in the TCP group, and no other
group is valid (44_tcp R99). -/
theorem commit_parseTcp_ok {p : TcpGroup}
    (h : parseTcp (byteAt s) s.loff.toNat s.llen.toNat = .ok p) :
    EndedWell (commit (outcomeOf .parseTcp s) s) 0x04 ∧
      (commit (outcomeOf .parseTcp s) s).results.tcp = p := by
  have hcmd : cmdParseTcp (byteAt s) s.loff.toNat s.llen.toNat = .ok { tcp := some p } := by
    rw [cmdParseTcp, h]
  obtain ⟨hwell, hresults⟩ := commit_onWindow_ok hfit hcmd
  exact ⟨tcpGroup_validWord p ▸ hwell, congrArg Results.tcp hresults⟩

end Outcome

/-- Settles O19: the command commits what `ParseTCP` answers at the first check that fails, or the record
when all pass; the data offset that the checks read is the statement's high nibble of byte 12. -/
theorem parseTcpDecodes : Obligations.ParseTcpDecodes := by
  intro s B o n doff
  have hdoff : (dataOffOf B o).toNat = doff := dataOffOf_toNat B o
  rw [← hdoff]
  refine ⟨_, exec_eq .parseTcp s, commit_onWindow_badWindow _, fun hfit hn => ?_,
    fun hfit hn hoff => ?_, fun hfit hn hoff hcut => ?_, fun hfit hoff hin => ?_⟩
  · exact commit_parseTcp_err hfit (parseTcp_short hn)
  · exact commit_parseTcp_err hfit (parseTcp_dataOff_below_5 hn hoff)
  · exact commit_parseTcp_err hfit (parseTcp_hdrLen_above_window hn hoff hcut)
  · obtain ⟨hwell, htcp⟩ := commit_parseTcp_ok hfit (parseTcp_accepts hoff hin)
    rw [htcp]
    exact ⟨hwell, tcpRecord_fields hfit hin⟩

end Sys2Proof.Machine

/-! The statement about UDP (45_udp.md): the outcome of PARSE_UDP on every window. -/

namespace Sys2Proof.Machine

/-! ### `ParseUDP` -/

section Windows
variable {B : Nat → Byte} {o n : Nat}

theorem parseUdp_short (hn : n < 8) : parseUdp B o n = .err .truncatedHeader .udp :=
  if_pos hn

theorem parseUdp_accepts (hn : 8 ≤ n) : parseUdp B o n = .ok (udpRecord B o n) :=
  if_neg hn.not_gt

/-- The record holds the fields of its window: the payload lies in the buffer, so its descriptor fits its
registers (00_scope R7). -/
theorem udpRecord_fields (hfit : o + n ≤ Config.bufSize) (hn : 8 ≤ n) :
    UdpFields B o n (udpRecord B o n) where
  srcPort := rfl
  dstPort := rfl
  length := rfl
  csum := rfl
  payOff := toReg_toNat (by omega)
  payLen := toReg_toNat (by omega)

end Windows

/-! ### PARSE_UDP -/

/-- PARSE_UDP fills the UDP group and no other. -/
theorem udpGroup_validWord (u : UdpGroup) : (Results.ofGroups { udp := some u }).valid.word = 0x08 := by
  change (Valid.mk false false false true false false).word = 0x08
  decide

section Outcome
variable {s : State} (hfit : WindowFits s)
include hfit

/-- On a window that fits, PARSE_UDP ends with `ParseUDP`'s error (45_udp R103). -/
theorem commit_parseUdp_err {c : ErrCode} {l : Layer}
    (h : parseUdp (byteAt s) s.loff.toNat s.llen.toNat = .err c l) :
    EndedWithError (commit (outcomeOf .parseUdp s) s) c.code l.code :=
  commit_onWindow_err hfit (by rw [cmdParseUdp, h])

/-- On a window that fits, PARSE_UDP ends well with `ParseUDP`'s record in the UDP group, and no other
group is valid (45_udp R103). -/
theorem commit_parseUdp_ok {u : UdpGroup}
    (h : parseUdp (byteAt s) s.loff.toNat s.llen.toNat = .ok u) :
    EndedWell (commit (outcomeOf .parseUdp s) s) 0x08 ∧
      (commit (outcomeOf .parseUdp s) s).results.udp = u := by
  have hcmd : cmdParseUdp (byteAt s) s.loff.toNat s.llen.toNat = .ok { udp := some u } := by
    rw [cmdParseUdp, h]
  obtain ⟨hwell, hresults⟩ := commit_onWindow_ok hfit hcmd
  exact ⟨udpGroup_validWord u ▸ hwell, congrArg Results.udp hresults⟩

end Outcome

/-- Settles O20: the command commits `ParseUDP`'s error on a window shorter than the header, and its
record on every other; the declared length takes no part in the split. -/
theorem parseUdpDecodes : Obligations.ParseUdpDecodes := by
  intro s
  refine ⟨_, exec_eq .parseUdp s, commit_onWindow_badWindow _, fun hfit hn => ?_, fun hfit hn => ?_⟩
  · exact commit_parseUdp_err hfit (parseUdp_short hn)
  · obtain ⟨hwell, hudp⟩ := commit_parseUdp_ok hfit (parseUdp_accepts hn)
    rw [hudp]
    exact ⟨hwell, udpRecord_fields hfit hn⟩

end Sys2Proof.Machine

/-! The statements about ICMP (46_icmp.md): the outcome of PARSE_ICMP on every window, the table of
`ClassifyICMPType`, and the result of CLASSIFY_ICMPTYPE. -/

namespace Sys2Proof.Machine

/-! ### `ParseICMP` -/

section Windows
variable {B : Nat → Byte} {o n : Nat}

theorem parseIcmp_short (hn : n < 4) : parseIcmp B o n = .err .truncatedHeader .icmp :=
  if_pos hn

theorem parseIcmp_accepts (hn : 4 ≤ n) : parseIcmp B o n = .ok (icmpRecord B o) :=
  if_neg hn.not_gt

/-- The record holds the fields of its window, with no bound on the window: it has no descriptor. -/
theorem icmpRecord_fields (B : Nat → Byte) (o : Nat) : IcmpFields B o (icmpRecord B o) where
  icmpType := rfl
  code := rfl
  csum := rfl
  typeClass := rfl

/-- `CmdParseICMP` passes on `ParseICMP`'s error (46_icmp R107). -/
theorem cmdParseIcmp_short (hn : n < 4) : cmdParseIcmp B o n = .err .truncatedHeader .icmp := by
  rw [cmdParseIcmp, parseIcmp_short hn]

/-- `CmdParseICMP` puts `ParseICMP`'s record in the ICMP group (46_icmp R107). -/
theorem cmdParseIcmp_accepts (hn : 4 ≤ n) :
    cmdParseIcmp B o n = .ok { icmp := some (icmpRecord B o) } := by
  rw [cmdParseIcmp, parseIcmp_accepts hn]

end Windows

/-! ### PARSE_ICMP -/

/-- PARSE_ICMP fills the ICMP group and no other. -/
theorem icmpGroup_validWord (m : IcmpGroup) :
    (Results.ofGroups { icmp := some m }).valid.word = 0x10 := by
  change (Valid.mk false false false false true false).word = 0x10
  decide

/-- On a window that fits and holds the four bytes of the header, PARSE_ICMP ends well with `ParseICMP`'s
record in the ICMP group, and no other group is valid (46_icmp R107). -/
theorem commit_parseIcmp_ok {s : State} (hfit : WindowFits s) (hn : 4 ≤ s.llen.toNat) :
    EndedWell (commit (outcomeOf .parseIcmp s) s) 0x10 ∧
      (commit (outcomeOf .parseIcmp s) s).results.icmp = icmpRecord (byteAt s) s.loff.toNat := by
  obtain ⟨hwell, hresults⟩ := commit_onWindow_ok hfit (cmdParseIcmp_accepts hn)
  exact ⟨icmpGroup_validWord _ ▸ hwell, congrArg Results.icmp hresults⟩

/-- Settles O21: the command commits `ParseICMP`'s error on a window shorter than the header, and its
record on every other. -/
theorem parseIcmpDecodes : Obligations.ParseIcmpDecodes := by
  intro s
  refine ⟨_, exec_eq .parseIcmp s, commit_onWindow_badWindow _, fun hfit hn => ?_, fun hfit hn => ?_⟩
  · exact commit_onWindow_err hfit (cmdParseIcmp_short hn)
  · obtain ⟨hwell, hicmp⟩ := commit_parseIcmp_ok hfit hn
    rw [hicmp]
    exact ⟨hwell, icmpRecord_fields _ _⟩

/-! ### CLASSIFY_ICMPTYPE -/

/-- The table of `ClassifyICMPType` (46_icmp R105): the types that have a class, and the class. -/
def icmpTypeTable : List (Nat × Nat) :=
  [(0, 1), (3, 2), (4, 3), (5, 4), (8, 5), (9, 6), (10, 7), (11, 8), (12, 9), (13, 10), (14, 11),
    (15, 12), (16, 13), (17, 14), (18, 15), (30, 16), (42, 17), (43, 18)]

/-- `ClassifyICMPType` looks its argument up in the table; a type without an entry has class 0
(46_icmp R105). -/
theorem classifyIcmpType_toNat (t : BitVec 8) :
    (classifyIcmpType t).toNat = (icmpTypeTable.lookup t.toNat).getD 0 := by
  unfold classifyIcmpType
  split
  case h_19 =>
    have hnone : icmpTypeTable.lookup t.toNat = none := by
      simp_all [List.lookup_eq_none_iff, icmpTypeTable]
    rw [hnone]; rfl
  all_goals next ht => rw [ht]; rfl

/-- CLASSIFY_ICMPTYPE commits the class of its byte operand, and nothing else (46_icmp R108). -/
theorem exec_classifyIcmptype (s : State) : exec .classifyIcmptype s =
    .next (commitOk { cls := some ((classifyIcmpType (byteOperand s)).setWidth 8) } s) :=
  exec_eq .classifyIcmptype s

/-- Settles O27: the command commits the class of its byte operand, and a class of five bits is itself in
the eight bits of `CLASS_RES`. -/
theorem classifyIcmptypeResult : Obligations.ClassifyIcmptypeResult := by
  refine ⟨decode_encode .classifyIcmptype, fun s => ⟨_, exec_classifyIcmptype s, ?_, ?_⟩⟩
  · rw [← classGroup_validWord]
    exact commitOk_endedWell _ s
  · change ((classifyIcmpType (byteOperand s)).setWidth 8).toNat = _
    rw [BitVec.toNat_setWidth_of_le (by decide), classifyIcmpType_toNat, byteOperand_toNat]
    rfl

end Sys2Proof.Machine

/-! The statements about the layer pipeline (47_pipeline.md): PARSE_FRAME runs the layers in order, and it
agrees with a host that chains the per-layer commands. -/

namespace Sys2Proof.Machine

/-! ### The transport layer of a frame is the transport command on top of the two layers below -/

/-- The groups of a transport command with those of the two layers below it (47_pipeline R111). -/
def Groups.onTop (e : EthGroup) (i : IpGroup) (g : Groups) : Groups :=
  { g with eth := some e, ip := some i }

/-- What a frame makes of the outcome of its transport layer: an error stays, groups are added to those
below (47_pipeline R111, R112). -/
def addLowerGroups (e : EthGroup) (i : IpGroup) : Parsed Groups → Parsed Groups
  | .err c l => .err c l
  | .ok g => .ok (g.onTop e i)

section Transport
variable {B : Nat → Byte} {e : EthGroup} {i : IpGroup}

theorem parseTransport_icmp (h : i.protoClass = 1) :
    parseTransport B e i = addLowerGroups e i (cmdParseIcmp B i.payOff.toNat i.payLen.toNat) := by
  simp only [parseTransport, cmdParseIcmp, if_pos h]
  cases parseIcmp B i.payOff.toNat i.payLen.toNat <;> rfl

theorem parseTransport_tcp (h : i.protoClass = 3) :
    parseTransport B e i = addLowerGroups e i (cmdParseTcp B i.payOff.toNat i.payLen.toNat) := by
  have h1 : i.protoClass ≠ 1 := by rw [h]; decide
  simp only [parseTransport, cmdParseTcp, if_neg h1, if_pos h]
  cases parseTcp B i.payOff.toNat i.payLen.toNat <;> rfl

theorem parseTransport_udp (h : i.protoClass = 4) :
    parseTransport B e i = addLowerGroups e i (cmdParseUdp B i.payOff.toNat i.payLen.toNat) := by
  have h1 : i.protoClass ≠ 1 := by rw [h]; decide
  have h3 : i.protoClass ≠ 3 := by rw [h]; decide
  simp only [parseTransport, cmdParseUdp, if_neg h1, if_neg h3, if_pos h]
  cases parseUdp B i.payOff.toNat i.payLen.toNat <;> rfl

/-- Every other protocol class ends the chain with the two lower groups (47_pipeline R110). -/
theorem parseTransport_none (h1 : i.protoClass ≠ 1) (h3 : i.protoClass ≠ 3) (h4 : i.protoClass ≠ 4) :
    parseTransport B e i = .ok { eth := some e, ip := some i } := by
  simp only [parseTransport, if_neg h1, if_neg h3, if_neg h4]

end Transport

/-- `VALID` bits 0 and 1 are those of Ethernet and IPv4 (10_state R20). -/
theorem validWord_with_eth_ip (v : Valid) :
    { v with eth := true, ip := true }.word = 0x03 ||| v.word := by
  obtain ⟨eth, ip, tcp, udp, icmp, cls⟩ := v
  revert eth ip tcp udp icmp cls
  decide

/-- A frame adds the `VALID` bits of Ethernet and IPv4 to its transport layer's (47_pipeline R111). -/
theorem onTop_validWord (e : EthGroup) (i : IpGroup) (g : Groups) :
    (Results.ofGroups (g.onTop e i)).valid.word = 0x03 ||| (Results.ofGroups g).valid.word :=
  validWord_with_eth_ip (Results.ofGroups g).valid

/-- A frame whose chain ends after IPv4 has the two lower groups and no other. -/
theorem ethIpGroups_validWord (e : EthGroup) (i : IpGroup) :
    (Results.ofGroups { eth := some e, ip := some i }).valid.word = 0x03 := by
  change (Valid.mk true true false false false false).word = 0x03
  decide

/-! ### The layers of a frame, one equation per way to go on or to end (47_pipeline R111) -/

section Layers
variable {B : Nat → Byte} {o n : Nat} {e : EthGroup} {c : ErrCode} {l : Layer}

theorem cmdParseFrame_eth_err (heth : parseEth B o n = .err c l) : cmdParseFrame B o n = .err c l := by
  rw [cmdParseFrame, heth]

theorem cmdParseFrame_not_ip (heth : parseEth B o n = .ok e) (h : e.etypeClass ≠ 3) :
    cmdParseFrame B o n = .ok { eth := some e } := by
  rw [cmdParseFrame, heth]
  exact if_neg h

theorem cmdParseFrame_ip_err (heth : parseEth B o n = .ok e) (h : e.etypeClass = 3)
    (hip : parseIpv4 B e.payOff.toNat e.payLen.toNat = .err c l) : cmdParseFrame B o n = .err c l := by
  simp only [cmdParseFrame, heth, parseNetwork, if_pos h, hip]

theorem cmdParseFrame_transport {i : IpGroup} (heth : parseEth B o n = .ok e) (h : e.etypeClass = 3)
    (hip : parseIpv4 B e.payOff.toNat e.payLen.toNat = .ok i) :
    cmdParseFrame B o n = parseTransport B e i := by
  simp only [cmdParseFrame, heth, parseNetwork, if_pos h, hip]

end Layers

/-! ### PARSE_FRAME -/

section Frame
variable {s : State} {e : EthGroup} {i : IpGroup} (hfit : WindowFits s)
  (heth : parseEth (byteAt s) s.loff.toNat s.llen.toNat = .ok e) (h3 : e.etypeClass = 3)
  (hip : parseIpv4 (byteAt s) e.payOff.toNat e.payLen.toNat = .ok i)
include hfit heth h3 hip

/-- A frame whose first two layers succeed fails with the error of its transport layer
(47_pipeline R112). -/
theorem commit_frame_transport_err {c : ErrCode} {l : Layer}
    (h : parseTransport (byteAt s) e i = addLowerGroups e i (.err c l)) :
    EndedWithError (commit (outcomeOf .parseFrame s) s) c.code l.code :=
  commit_onWindow_err hfit ((cmdParseFrame_transport heth h3 hip).trans h)

/-- A frame whose three layers succeed ends with the groups of all three (47_pipeline R111). `field` picks
a transport group. -/
theorem commit_frame_transport_ok {α : Type} (field : Results → α) {g : Groups} {v : Word}
    (hv : (Results.ofGroups g).valid.word = v)
    (h : parseTransport (byteAt s) e i = addLowerGroups e i (.ok g)) :
    let t := commit (outcomeOf .parseFrame s) s
    EndedWell t (0x03 ||| v) ∧ t.results.eth = e ∧ t.results.ip = i ∧
      field t.results = field (.ofGroups (g.onTop e i)) := by
  obtain ⟨hwell, hres⟩ := commit_onWindow_ok hfit ((cmdParseFrame_transport heth h3 hip).trans h)
  rw [onTop_validWord, hv] at hwell
  exact ⟨hwell, congrArg Results.eth hres, congrArg Results.ip hres, congrArg field hres⟩

/-- A frame whose chain ends after IPv4 ends with the two lower groups (47_pipeline R110). -/
theorem commit_frame_no_transport
    (h : parseTransport (byteAt s) e i = .ok { eth := some e, ip := some i }) :
    EndedWell (commit (outcomeOf .parseFrame s) s) 0x03 ∧
      (commit (outcomeOf .parseFrame s) s).results =
        Results.ofGroups { eth := some e, ip := some i } :=
  ethIpGroups_validWord e i ▸ commit_onWindow_ok hfit ((cmdParseFrame_transport heth h3 hip).trans h)

end Frame

/-- Settles O22: the first layer that fails is the frame's outcome, and the transport layer is the one
that the protocol class names. -/
theorem parseFrameRunsLayers : Obligations.ParseFrameRunsLayers := by
  intro s
  refine ⟨_, exec_eq .parseFrame s, commit_onWindow_badWindow _, fun hfit c l heth => ?_,
    fun hfit e heth => ⟨fun hne => ?_, fun h3 c l hip => ?_, fun h3 i hip =>
      ⟨fun hp c l hrun => ?_, fun hp c l hrun => ?_, fun hp c l hrun => ?_,
        fun hp m hrun => ?_, fun hp p hrun => ?_, fun hp u hrun => ?_, fun hp1 hp3 hp4 => ?_⟩⟩⟩
  · exact commit_onWindow_err hfit (cmdParseFrame_eth_err heth)
  · obtain ⟨hwell, hres⟩ := commit_onWindow_ok hfit (cmdParseFrame_not_ip heth hne)
    exact ⟨ethGroup_validWord e ▸ hwell, congrArg Results.eth hres⟩
  · exact commit_onWindow_err hfit (cmdParseFrame_ip_err heth h3 hip)
  · exact commit_frame_transport_err hfit heth h3 hip
      (by rw [parseTransport_icmp hp, cmdParseIcmp, hrun])
  · exact commit_frame_transport_err hfit heth h3 hip
      (by rw [parseTransport_tcp hp, cmdParseTcp, hrun])
  · exact commit_frame_transport_err hfit heth h3 hip
      (by rw [parseTransport_udp hp, cmdParseUdp, hrun])
  · exact commit_frame_transport_ok hfit heth h3 hip Results.icmp (icmpGroup_validWord m)
      (by rw [parseTransport_icmp hp, cmdParseIcmp, hrun])
  · exact commit_frame_transport_ok hfit heth h3 hip Results.tcp (tcpGroup_validWord p)
      (by rw [parseTransport_tcp hp, cmdParseTcp, hrun])
  · exact commit_frame_transport_ok hfit heth h3 hip Results.udp (udpGroup_validWord u)
      (by rw [parseTransport_udp hp, cmdParseUdp, hrun])
  · obtain ⟨hwell, hres⟩ :=
      commit_frame_no_transport hfit heth h3 hip (parseTransport_none hp1 hp3 hp4)
    exact ⟨hwell, congrArg Results.eth hres, congrArg Results.ip hres⟩

/-! ### The host's chain of per-layer commands -/

/-- The host can start a command: the engine is IDLE, `rst` is released, and the buffer holds `B`. -/
structure ReadyWith (B : Nat → Byte) (u : State) : Prop where
  idle : u.eng = .idle
  released : u.rst = false
  bytes : byteAt u = B

/-- After a commit the host can start the next command, on the same buffer (30_encoding R71). -/
theorem readyWith_commit {B : Nat → Byte} {s : State} (r : Parsed Groups) (hr : s.rst = false)
    (hB : byteAt s = B) : ReadyWith B (commit r s) :=
  ⟨commit_eng r s, (commit_rst r s).trans hr, (byteAt_commit_fun r s).trans hB⟩

section Chain
variable {B : Nat → Byte} {u : State} (hu : ReadyWith B u)
include hu

/-- The host's command latches its window (30_encoding R68) and leaves `rst` and the buffer alone. -/
theorem ReadyWith.hostCommand_latches (i : Instr) (off len : Word) :
    (hostCommand i off len u).loff = off ∧ (hostCommand i off len u).llen = len ∧
      (hostCommand i off len u).rst = false ∧ byteAt (hostCommand i off len u) = B := by
  rw [hostCommand_idle i off len hu.idle hu.released]
  exact ⟨rfl, rfl, hu.released, hu.bytes⟩

theorem ReadyWith.commit_hostCommand (i : Instr) (off len : Word) (r : Parsed Groups) :
    ReadyWith B (commit r (hostCommand i off len u)) := by
  obtain ⟨-, -, hrst, hbytes⟩ := hu.hostCommand_latches i off len
  exact readyWith_commit r hrst hbytes

/-- The host's parse command commits what its function returns on the descriptor's window, if that lies
in the buffer. -/
theorem ReadyWith.exec_hostCommand {f : (Nat → Byte) → Nat → Nat → Parsed Groups} (i : Instr)
    (hi : outcomeOf i = onWindow f) {off len : Word} (hin : InBuffer off len) :
    exec i (hostCommand i off len u) =
      .next (commit (f B off.toNat len.toNat) (hostCommand i off len u)) := by
  obtain ⟨hoff, hlen, -, hbytes⟩ := hu.hostCommand_latches i off len
  have hfit : WindowFits (hostCommand i off len u) := by
    rw [WindowFits, hoff, hlen]
    exact hin
  rw [exec_eq, hi, onWindow_fits hfit, hoff, hlen, hbytes]

end Chain

/-! ### A frame and a command of the chain compared

Each step of the chain compares the frame's last state `t` with the command's `u`: if the command failed
the frame failed alike, and if it succeeded some `P` holds. -/

theorem ErrCode.code_ne_zero (c : ErrCode) : c.code ≠ 0 := by cases c <;> decide

/-- Both failed with the same error. -/
theorem EndedWithError.agrees {t u : State} {c : ErrCode} {l : BitVec 3} {P : Prop}
    (ht : EndedWithError t c.code l) (hu : EndedWithError u c.code l) :
    (u.err ≠ 0 → t.err = u.err ∧ t.errLayer = u.errLayer) ∧ (u.err = 0 → P) :=
  ⟨fun _ => ⟨ht.err.trans hu.err.symm, ht.errLayer.trans hu.errLayer.symm⟩,
    fun h => absurd (hu.err.symm.trans h) c.code_ne_zero⟩

/-- The command succeeded. -/
theorem EndedWell.agrees {u : State} {v : Word} {P Q : Prop} (hu : EndedWell u v) (hP : P) :
    (u.err ≠ 0 → Q) ∧ (u.err = 0 → P) :=
  ⟨fun h => absurd hu.err h, fun _ => hP⟩

/-- The transport command against the frame whose transport layer it is: the same error, or the frame has
the command's group on top of the two lower ones (47_pipeline R113). `field` picks that group. -/
theorem commit_addLowerGroups_agrees {α : Type} (field : Results → α)
    (hfield : ∀ e i g, field (.ofGroups (g.onTop e i)) = field (.ofGroups g)) {v : Word}
    {r : Parsed Groups} (hv : ∀ g, r = .ok g → (Results.ofGroups g).valid.word = v)
    (e : EthGroup) (i : IpGroup) (s s3 : State) :
    let t := commit (addLowerGroups e i r) s
    let t3 := commit r s3
    (t3.err ≠ 0 → t.err = t3.err ∧ t.errLayer = t3.errLayer) ∧
      (t3.err = 0 → t3.results.valid.word = v ∧ t.err = 0 ∧ t.results.valid.word = 0x03 ||| v ∧
        t.results.eth = e ∧ t.results.ip = i ∧ field t.results = field t3.results) := by
  cases r with
  | err c l => exact (commitErr_endedWithError c l s).agrees (commitErr_endedWithError c l s3)
  | ok g =>
    obtain rfl := hv g rfl
    exact (commitOk_endedWell g s3).agrees
      ⟨rfl, rfl, onTop_validWord e i g, rfl, rfl, hfield e i g⟩

theorem cmdParseIcmp_validWord (B : Nat → Byte) (o n : Nat) (g : Groups)
    (h : cmdParseIcmp B o n = .ok g) : (Results.ofGroups g).valid.word = 0x10 := by
  unfold cmdParseIcmp at h
  split at h <;> cases h
  exact icmpGroup_validWord _

theorem cmdParseTcp_validWord (B : Nat → Byte) (o n : Nat) (g : Groups)
    (h : cmdParseTcp B o n = .ok g) : (Results.ofGroups g).valid.word = 0x04 := by
  unfold cmdParseTcp at h
  split at h <;> cases h
  exact tcpGroup_validWord _

theorem cmdParseUdp_validWord (B : Nat → Byte) (o n : Nat) (g : Groups)
    (h : cmdParseUdp B o n = .ok g) : (Results.ofGroups g).valid.word = 0x08 := by
  unfold cmdParseUdp at h
  split at h <;> cases h
  exact udpGroup_validWord _

/-- Settles O23: the chain's commands run on the windows that the frame's layers run on, since each payload
lies in the buffer, and on the same bytes, since no command stores; so at each layer both fail alike or
both go on. -/
theorem frameAgreesWithHostChaining : Obligations.FrameAgreesWithHostChaining := by
  intro s hrst
  refine ⟨_, _, exec_eq .parseFrame s, exec_eq .parseEth s, ?_⟩
  by_cases hfit : WindowFits s
  case neg =>
    exact EndedWithError.agrees (c := .badWindow) (commit_onWindow_badWindow _ hfit)
      (commit_onWindow_badWindow _ hfit)
  have hframe : outcomeOf .parseFrame s = cmdParseFrame (byteAt s) s.loff.toNat s.llen.toNat :=
    onWindow_fits hfit
  cases heth : parseEth (byteAt s) s.loff.toNat s.llen.toNat with
  | err c l =>
    exact (commit_onWindow_err hfit (cmdParseFrame_eth_err heth)).agrees (commit_parseEth_err hfit heth)
  | ok e =>
    have hcmdEth : outcomeOf .parseEth s = .ok { eth := some e } := by
      rw [outcomeOf, onWindow_fits hfit, cmdParseEth, heth]
    obtain ⟨heSound, -⟩ := parseEth_sound hfit heth
    rw [hcmdEth]
    refine (commitOk_endedWell _ s).agrees ⟨ethGroup_validWord e,
      fun (hne : e.etypeClass ≠ 3) => ?_, fun (h3 : e.etypeClass = 3) => ?_⟩
    · rw [hframe, cmdParseFrame_not_ip heth hne]
      exact ⟨rfl, rfl⟩
    have hready1 := readyWith_commit (.ok { eth := some e }) hrst rfl
    have hrun2 := hready1.exec_hostCommand .parseIpv4 rfl heSound.payload
    refine ⟨_, hrun2, ?_⟩
    cases hip : parseIpv4 (byteAt s) e.payOff.toNat e.payLen.toNat with
    | err c l =>
      have hcmdIp : cmdParseIpv4 (byteAt s) e.payOff.toNat e.payLen.toNat = .err c l := by
        rw [cmdParseIpv4, hip]
      rw [hframe, cmdParseFrame_ip_err heth h3 hip, hcmdIp]
      exact (commitErr_endedWithError c l s).agrees (commitErr_endedWithError c l _)
    | ok i =>
      have hcmdIp : cmdParseIpv4 (byteAt s) e.payOff.toNat e.payLen.toNat = .ok { ip := some i } := by
        rw [cmdParseIpv4, hip]
      obtain ⟨hiSound, -⟩ := parseIpv4_sound heSound.payload hip
      have hready2 := hready1.commit_hostCommand .parseIpv4 e.payOff e.payLen (.ok { ip := some i })
      rw [hframe, cmdParseFrame_transport heth h3 hip, hcmdIp]
      refine (commitOk_endedWell _ _).agrees ⟨ipGroup_validWord i,
        fun (hp : i.protoClass = 1) => ?_, fun (hp : i.protoClass = 3) => ?_,
        fun (hp : i.protoClass = 4) => ?_, fun (hp1 : i.protoClass ≠ 1) hp3 hp4 => ?_⟩
      · rw [parseTransport_icmp hp]
        exact ⟨_, hready2.exec_hostCommand .parseIcmp rfl hiSound.payload,
          commit_addLowerGroups_agrees Results.icmp (fun _ _ _ => rfl) (cmdParseIcmp_validWord _ _ _)
            e i s _⟩
      · rw [parseTransport_tcp hp]
        exact ⟨_, hready2.exec_hostCommand .parseTcp rfl hiSound.payload,
          commit_addLowerGroups_agrees Results.tcp (fun _ _ _ => rfl) (cmdParseTcp_validWord _ _ _)
            e i s _⟩
      · rw [parseTransport_udp hp]
        exact ⟨_, hready2.exec_hostCommand .parseUdp rfl hiSound.payload,
          commit_addLowerGroups_agrees Results.udp (fun _ _ _ => rfl) (cmdParseUdp_validWord _ _ _)
            e i s _⟩
      · rw [parseTransport_none hp1 hp3 hp4]
        exact ⟨rfl, ethIpGroups_validWord e i, rfl, rfl⟩

end Sys2Proof.Machine

/-! The statements about errors, status bits and the interrupt (60_exceptions.md): what a failed command
leaves, which error codes a command can leave, and which steps change an error, DONE, a sticky bit or
`irq`. -/

namespace Sys2Proof.Machine

/-! ### The next input -/

theorem outsideMove_nil {s : State} (h : s.agenda = []) : outsideMove s = s := by
  simp [outsideMove, h]

theorem outsideMove_cons {s : State} {e : Input} {rest : List Input} (h : s.agenda = e :: rest) :
    outsideMove s = perform e { s with agenda := rest } := by
  simp [outsideMove, h]

/-- Settles O9: off the engine's turn, or with no command in flight, the step is the outside world's. -/
theorem stepPerformsNextInput : Obligations.StepPerformsNextInput :=
  ⟨fun _ _ _ hturn hag => by rw [step_outside hturn, outsideMove_cons hag],
    fun _ hi hag => by rw [step_idle hi, outsideMove_nil hag]⟩

/-! ### A failed command -/

theorem Layer.code_ne_zero (l : Layer) : l.code ≠ 0 := by cases l <;> decide

theorem irq_commit (r : Parsed Groups) (s : State) : irq (commit r s) = s.irqEn := by
  rw [irq, commit_done, commit_irqEn, Bool.true_and]

/-- Settles O14: the engine's move is a commit, and the one that leaves an error code is that of an
`Err` outcome. -/
theorem failedCommandLeavesNoResult : Obligations.FailedCommandLeavesNoResult := by
  intro s
  obtain ⟨r, hmove⟩ := engineMove_eq s
  refine ⟨commit r s, hmove, fun hfail => ?_⟩
  cases r with
  | ok g => exact absurd rfl hfail
  | err c l =>
    exact ⟨Layer.code_ne_zero l, rfl, zero_validWord, rfl, rfl, (irq_commit _ s).trans,
      commit_frame _ s⟩

/-! ### The errors of a command -/

/-- If the outcome is an error, its code and layer are a pair of 60_exceptions R114 and R115. -/
def FailsLegally (r : Parsed Groups) : Prop :=
  ∀ c l, r = .err c l → (c.code, l.code) ∈ legalErrors

theorem failsLegally_ok (g : Groups) : FailsLegally (.ok g) := nofun

theorem failsLegally_err {c : ErrCode} {l : Layer} (h : (c.code, l.code) ∈ legalErrors) :
    FailsLegally (.err c l) := by
  rintro _ _ ⟨⟩
  exact h

section Parsers
variable {B : Nat → Byte} {o n : Nat} {c : ErrCode} {l : Layer}

theorem parseEth_legalError (h : parseEth B o n = .err c l) : (c.code, l.code) ∈ legalErrors := by
  obtain ⟨rfl, rfl⟩ := parseEth_err h
  decide

theorem parseIpv4_legalError (h : parseIpv4 B o n = .err c l) : (c.code, l.code) ∈ legalErrors := by
  obtain ⟨rfl | rfl, rfl⟩ := parseIpv4_err h <;> decide

theorem parseTcp_legalError (h : parseTcp B o n = .err c l) : (c.code, l.code) ∈ legalErrors := by
  obtain ⟨rfl | rfl, rfl⟩ := parseTcp_err h <;> decide

theorem parseUdp_legalError (h : parseUdp B o n = .err c l) : (c.code, l.code) ∈ legalErrors := by
  obtain ⟨rfl, rfl⟩ := parseUdp_err h
  decide

theorem parseIcmp_legalError (h : parseIcmp B o n = .err c l) : (c.code, l.code) ∈ legalErrors := by
  obtain ⟨rfl, rfl⟩ := parseIcmp_err h
  decide

end Parsers

theorem cmdParseEth_failsLegally (B : Nat → Byte) (o n : Nat) : FailsLegally (cmdParseEth B o n) := by
  unfold cmdParseEth
  split
  next hfail => exact failsLegally_err (parseEth_legalError hfail)
  next => exact failsLegally_ok _

theorem cmdParseIpv4_failsLegally (B : Nat → Byte) (o n : Nat) :
    FailsLegally (cmdParseIpv4 B o n) := by
  unfold cmdParseIpv4
  split
  next hfail => exact failsLegally_err (parseIpv4_legalError hfail)
  next => exact failsLegally_ok _

theorem cmdParseTcp_failsLegally (B : Nat → Byte) (o n : Nat) : FailsLegally (cmdParseTcp B o n) := by
  unfold cmdParseTcp
  split
  next hfail => exact failsLegally_err (parseTcp_legalError hfail)
  next => exact failsLegally_ok _

theorem cmdParseUdp_failsLegally (B : Nat → Byte) (o n : Nat) : FailsLegally (cmdParseUdp B o n) := by
  unfold cmdParseUdp
  split
  next hfail => exact failsLegally_err (parseUdp_legalError hfail)
  next => exact failsLegally_ok _

theorem cmdParseIcmp_failsLegally (B : Nat → Byte) (o n : Nat) :
    FailsLegally (cmdParseIcmp B o n) := by
  unfold cmdParseIcmp
  split
  next hfail => exact failsLegally_err (parseIcmp_legalError hfail)
  next => exact failsLegally_ok _

/-- A frame keeps the error of its transport layer (47_pipeline R112). -/
theorem addLowerGroups_failsLegally (e : EthGroup) (i : IpGroup) {r : Parsed Groups}
    (h : FailsLegally r) : FailsLegally (addLowerGroups e i r) := by
  cases r with
  | ok g => exact failsLegally_ok _
  | err c l => exact h

theorem parseTransport_failsLegally (B : Nat → Byte) (e : EthGroup) (i : IpGroup) :
    FailsLegally (parseTransport B e i) := by
  by_cases h1 : i.protoClass = 1
  · rw [parseTransport_icmp h1]
    exact addLowerGroups_failsLegally e i (cmdParseIcmp_failsLegally _ _ _)
  by_cases h3 : i.protoClass = 3
  · rw [parseTransport_tcp h3]
    exact addLowerGroups_failsLegally e i (cmdParseTcp_failsLegally _ _ _)
  by_cases h4 : i.protoClass = 4
  · rw [parseTransport_udp h4]
    exact addLowerGroups_failsLegally e i (cmdParseUdp_failsLegally _ _ _)
  · rw [parseTransport_none h1 h3 h4]
    exact failsLegally_ok _

/-- A frame's error is that of the first of its layers that fails (47_pipeline R112). -/
theorem cmdParseFrame_failsLegally (B : Nat → Byte) (o n : Nat) :
    FailsLegally (cmdParseFrame B o n) := by
  rcases cmdParseFrame_cases B o n with
    ⟨c, l, h, heth⟩ | ⟨e, -, ⟨-, h⟩ | ⟨-, ⟨c, l, hip, h⟩ | ⟨i, -, h⟩⟩⟩ <;> rw [h]
  · exact failsLegally_err (parseEth_legalError heth)
  · exact failsLegally_ok _
  · exact failsLegally_err (parseIpv4_legalError hip)
  · exact parseTransport_failsLegally B e i

/-- The window check adds BAD_WINDOW in layer CMD (30_encoding R70). -/
theorem onWindow_failsLegally {f : (Nat → Byte) → Nat → Nat → Parsed Groups}
    (hf : ∀ B o n, FailsLegally (f B o n)) (s : State) : FailsLegally (onWindow f s) := by
  unfold onWindow
  split
  · exact failsLegally_err (by decide)
  · exact hf _ _ _

theorem outcomeOf_failsLegally (i : Instr) (s : State) : FailsLegally (outcomeOf i s) := by
  cases i with
  | parseEth => exact onWindow_failsLegally cmdParseEth_failsLegally s
  | parseIpv4 => exact onWindow_failsLegally cmdParseIpv4_failsLegally s
  | parseTcp => exact onWindow_failsLegally cmdParseTcp_failsLegally s
  | parseUdp => exact onWindow_failsLegally cmdParseUdp_failsLegally s
  | parseIcmp => exact onWindow_failsLegally cmdParseIcmp_failsLegally s
  | parseFrame => exact onWindow_failsLegally cmdParseFrame_failsLegally s
  | classifyEtype | classifyIpproto | classifyIcmptype => exact failsLegally_ok _

theorem commit_legalErrors {r : Parsed Groups} (hr : FailsLegally r) (s : State) :
    ((commit r s).err, (commit r s).errLayer) ∈ legalErrors := by
  cases r with
  | ok g => exact (by decide : ((0, 0) : BitVec 4 × BitVec 3) ∈ legalErrors)
  | err c l => exact hr c l rfl

/-- No error has code 0 or layer 0, so a commit clears both or neither (60_exceptions R114, R115). -/
theorem commit_errLayer_eq_zero_iff (r : Parsed Groups) (s : State) :
    (commit r s).errLayer = 0 ↔ (commit r s).err = 0 := by
  cases r with
  | ok g => exact iff_of_true rfl rfl
  | err c l => exact iff_of_false (Layer.code_ne_zero l) (ErrCode.code_ne_zero c)

/-- Settles O16: a command's next state is the commit of an outcome that fails legally. -/
theorem commandErrorsAreLegal : Obligations.CommandErrorsAreLegal := by
  intro i s t h
  obtain rfl := exec_next h
  exact ⟨commit_legalErrors (outcomeOf_failsLegally i s) s, commit_errLayer_eq_zero_iff _ s⟩

/-! ### What the outside world's moves do to the status and the interrupt enable -/

/-- No sticky bit of `STATUS` is cleared from `s` to `t` (60_exceptions R120). -/
structure StickyKept (s t : State) : Prop where
  cmdIgnored : s.cmdIgnored = true → t.cmdIgnored = true
  writeIgnored : s.writeIgnored = true → t.writeIgnored = true
  accErr : s.accErr = true → t.accErr = true

/-- The error, DONE and `IRQ_EN` are the same in `s` and `t`, and no sticky bit is cleared. -/
structure StatusKept (s t : State) : Prop extends StickyKept s t where
  err : t.err = s.err
  errLayer : t.errLayer = s.errLayer
  done : t.done = s.done
  irqEn : t.irqEn = s.irqEn

theorem StickyKept.of_eq {s t : State} (hcmd : t.cmdIgnored = s.cmdIgnored)
    (hwrite : t.writeIgnored = s.writeIgnored) (hacc : t.accErr = s.accErr) : StickyKept s t :=
  ⟨hcmd.trans, hwrite.trans, hacc.trans⟩

theorem StatusKept.irq {s t : State} (h : StatusKept s t) : irq t = irq s := by
  rw [Machine.irq, Machine.irq, h.done, h.irqEn]

/-- The agenda is no part of the status. -/
theorem StatusKept.of_agenda {s t : State} {rest : List Input}
    (h : StatusKept { s with agenda := rest } t) : StatusKept s t where
  cmdIgnored := h.cmdIgnored
  writeIgnored := h.writeIgnored
  accErr := h.accErr
  err := h.err
  errLayer := h.errLayer
  done := h.done
  irqEn := h.irqEn

theorem statusKept_refl (s : State) : StatusKept s s := ⟨.of_eq rfl rfl rfl, rfl, rfl, rfl, rfl⟩

theorem statusKept_accessError (s : State) : StatusKept s (accessError s) :=
  ⟨⟨id, id, fun _ => rfl⟩, rfl, rfl, rfl, rfl⟩

theorem statusKept_dropWrite (s : State) : StatusKept s (dropWrite s) :=
  ⟨⟨id, fun _ => rfl, id⟩, rfl, rfl, rfl, rfl⟩

theorem Stored.statusKept {addr : HostAddr} {w : Width} {v : Word} {s t : State}
    (h : Stored addr w v s t) : StatusKept s t := by
  refine ⟨.of_eq ?_ ?_ ?_, ?_, ?_, ?_, ?_⟩ <;> cases h <;> simp

theorem hostRead_statusKept (addr : HostAddr) (w : Width) (s : State) :
    StatusKept s (hostRead addr w s) := by
  obtain ⟨d, k, e | ⟨-, e⟩⟩ := hostRead_eq addr w s <;> rw [e]
  · exact ⟨.of_eq rfl rfl rfl, rfl, rfl, rfl, rfl⟩
  · exact ⟨⟨id, id, fun _ => rfl⟩, rfl, rfl, rfl, rfl⟩

theorem pollStatus_statusKept (late : Bool) (polls : Nat) (s : State) :
    StatusKept s (pollStatus late polls s) := by
  rw [pollStatus_eq]
  exact ⟨.of_eq rfl rfl rfl, rfl, rfl, rfl, rfl⟩

/-- A write keeps the status and `IRQ_EN`, unless it is a `STATUS` write, a `CTRL` write, or a `CMD`
write that an IDLE engine accepts. -/
theorem hostWrite_status_cases (addr : HostAddr) (w : Width) (v : Word) (s : State) :
    StatusKept s (hostWrite addr w v s) ∨
    (addr = 0x0004#16 ∧ w = .w32 ∧ hostWrite addr w v s = writeStatus v s) ∨
    (addr = 0x0008#16 ∧ w = .w32 ∧ hostWrite addr w v s = { s with irqEn := v.getLsbD 0 }) ∨
    (addr = 0x0000#16 ∧ w = .w32 ∧ s.eng = .idle ∧ hostWrite addr w v s = accept v s) := by
  rcases hostWrite_cases addr w v s with
    e | ⟨-, ⟨-, e⟩ | ⟨ha, hw, e⟩ | hstatus | hctrl | ⟨-, e⟩ | ⟨-, e⟩⟩
  · exact .inl (by rw [e]; exact statusKept_refl s)
  · exact .inl (by rw [e]; exact statusKept_accessError s)
  · cases hs : s.eng with
    | idle => exact .inr (.inr (.inr ⟨ha, hw, rfl, e.trans (writeCmd_idle v hs)⟩))
    | busy =>
      rw [e, writeCmd_busy v hs]
      exact .inl ⟨⟨fun _ => rfl, id, id⟩, rfl, rfl, rfl, rfl⟩
  · exact .inr (.inl hstatus)
  · exact .inr (.inr (.inl hctrl))
  · exact .inl (by rw [e]; exact statusKept_dropWrite s)
  · exact .inl e.statusKept

/-- Everything a move of the outside world can do to the status and `IRQ_EN`: nothing but set sticky
bits, one of the three writes, or reset. -/
inductive StatusMove (s : State) : State → Prop where
  | kept {t : State} (h : StatusKept s t) : StatusMove s t
  | status {late : Bool} {v : Word} {rest : List Input}
      (h : s.agenda = ⟨late, .access (.write 0x0004#16 .w32 v)⟩ :: rest) :
      StatusMove s (writeStatus v { s with agenda := rest })
  | ctrl {late : Bool} {v : Word} {rest : List Input}
      (h : s.agenda = ⟨late, .access (.write 0x0008#16 .w32 v)⟩ :: rest) :
      StatusMove s { s with agenda := rest, irqEn := v.getLsbD 0 }
  | accepted {late : Bool} {w : Word} {rest : List Input} (hidle : s.eng = .idle)
      (h : s.agenda = ⟨late, .access (.write 0x0000#16 .w32 w)⟩ :: rest) :
      StatusMove s (accept w { s with agenda := rest })
  | reset {rest : List Input} (hrel : s.rst = false) :
      StatusMove s (enterReset { s with agenda := rest })

theorem outsideMove_statusMove (s : State) : StatusMove s (outsideMove s) := by
  rcases outsideMove_cases s with ⟨-, e⟩ | ⟨late, rest, ⟨addr, w, -, e⟩ | ⟨addr, w, v, hag, e⟩ |
    ⟨polls, -, e⟩ | ⟨level, -, e⟩⟩ <;> rw [e]
  · exact .kept (statusKept_refl s)
  · exact .kept (hostRead_statusKept addr w _).of_agenda
  · rcases hostWrite_status_cases addr w v { s with agenda := rest } with
      h | ⟨rfl, rfl, h⟩ | ⟨rfl, rfl, h⟩ | ⟨rfl, rfl, hidle, h⟩
    · exact .kept h.of_agenda
    · exact h ▸ .status hag
    · exact h ▸ .ctrl hag
    · exact h ▸ .accepted hidle hag
  · exact .kept (pollStatus_statusKept late polls _).of_agenda
  · rcases setRst_cases level { s with agenda := rest } with ⟨-, hrel, h⟩ | ⟨-, h⟩ <;> rw [h]
    · exact .reset hrel
    · exact .kept ⟨.of_eq rfl rfl rfl, rfl, rfl, rfl, rfl⟩

/-- Everything a step can do to the status and `IRQ_EN`. -/
theorem step_status_cases {s t : State} (h : step s = .next t) :
    (engineTurn s = true ∧ ∃ r, t = commit r s) ∨ StatusMove s t := by
  rcases step_cases h with ⟨hturn, -, hr⟩ | ⟨-, rfl⟩
  · exact .inl ⟨hturn, hr⟩
  · exact .inr (outsideMove_statusMove s)

/-! ### The sticky bits -/

/-- Without reset, a step clears no sticky bit unless it is a `STATUS` write. -/
theorem step_sticky_cases {s t : State} (h : step s = .next t) (hrst : ¬(s.rst = false ∧ t.rst = true)) :
    StickyKept s t ∨ ∃ late v rest,
      s.agenda = ⟨late, .access (.write 0x0004#16 .w32 v)⟩ :: rest ∧
      t = writeStatus v { s with agenda := rest } := by
  rcases step_status_cases h with ⟨-, r, rfl⟩ | hmove
  · exact .inl (.of_eq (commit_cmdIgnored r s) (commit_writeIgnored r s) (commit_accErr r s))
  · cases hmove with
    | kept hkept => exact .inl hkept.toStickyKept
    | status hag => exact .inr ⟨_, _, _, hag, rfl⟩
    | ctrl | accepted => exact .inl (.of_eq rfl rfl rfl)
    | reset hrel => exact absurd ⟨hrel, enterReset_rst _⟩ hrst

/-- A bit that was 1 and is 0 after `W1C` had a 1 written to it (00_scope R9). -/
theorem written_of_w1c_cleared {b c : Bool} (hset : b = true) (hclear : (b && !c) = false) :
    c = true := by
  simpa [hset] using hclear

/-- Settles O46: the step that clears a sticky bit is a `STATUS` write, which clears by `W1C`. -/
theorem stickyBitsClearedOnlyByWritingOne : Obligations.StickyBitsClearedOnlyByWritingOne := by
  intro s t h hrst
  rcases step_sticky_cases h hrst with hkept | ⟨late, v, rest, hag, rfl⟩
  · refine ⟨fun hset hclear => ?_, fun hset hclear => ?_, fun hset hclear => ?_⟩
    · exact absurd (hkept.cmdIgnored hset) (by simp [hclear])
    · exact absurd (hkept.writeIgnored hset) (by simp [hclear])
    · exact absurd (hkept.accErr hset) (by simp [hclear])
  · exact ⟨fun hset hclear => ⟨late, v, rest, written_of_w1c_cleared hset hclear, hag⟩,
      fun hset hclear => ⟨late, v, rest, written_of_w1c_cleared hset hclear, hag⟩,
      fun hset hclear => ⟨late, v, rest, written_of_w1c_cleared hset hclear, hag⟩⟩

/-! ### The error and DONE -/

/-- Settles O47: apart from a commit and an acceptance, a step keeps the error, and it keeps DONE unless
it is a `STATUS` write. -/
theorem errorAndDoneLastUntilCleared : Obligations.ErrorAndDoneLastUntilCleared := by
  intro s t h hrst
  rcases step_status_cases h with ⟨hturn, r, rfl⟩ | hmove
  · exact ⟨fun _ => .inl hturn, fun _ hclear => by simp at hclear⟩
  · cases hmove with
    | kept hkept =>
      refine ⟨fun hchange => ?_, fun hset hclear => ?_⟩
      · simp [hkept.err, hkept.errLayer] at hchange
      · simp [hkept.done, hset] at hclear
    | status hag =>
      exact ⟨fun hchange => by simp at hchange,
        fun hset hclear => .inl ⟨_, _, _, written_of_w1c_cleared hset hclear, hag⟩⟩
    | ctrl => exact ⟨fun hchange => by simp at hchange, fun hset hclear => by simp [hset] at hclear⟩
    | accepted hidle hag =>
      exact ⟨fun _ => .inr ⟨hidle, rfl, rfl, rfl, _, _, _, hag⟩,
        fun _ _ => .inr ⟨hidle, rfl, _, _, _, hag⟩⟩
    | reset hrel => exact absurd ⟨hrel, enterReset_rst _⟩ hrst

/-! ### The interrupt -/

/-- A `STATUS` write can only lower `irq`. -/
theorem irq_of_irq_writeStatus {v : Word} {s : State} (h : irq (writeStatus v s) = true) :
    irq s = true := by
  simp only [irq, writeStatus_done, writeStatus_irqEn, Bool.and_eq_true] at h ⊢
  exact ⟨h.1.1, h.2⟩

/-- Settles O49: a commit and a `CTRL` write are the only steps that leave `irq` at 1 where it was 0. -/
theorem irqRisesOnlyByCompletionOrEnable : Obligations.IrqRisesOnlyByCompletionOrEnable := by
  intro s t h hlow hhigh
  rcases step_status_cases h with ⟨hturn, r, rfl⟩ | hmove
  · exact .inl ⟨hturn, (irq_commit r s).symm.trans hhigh⟩
  · cases hmove with
    | kept hkept =>
      rw [hkept.irq, hlow] at hhigh
      cases hhigh
    | status hag =>
      have hbefore : irq s = true := irq_of_irq_writeStatus hhigh
      rw [hlow] at hbefore
      cases hbefore
    | ctrl hag =>
      obtain ⟨hdone, hen⟩ := (Bool.and_eq_true _ _).mp hhigh
      exact .inr ⟨hdone, _, _, _, hen, hag⟩
    | accepted => cases hhigh
    | reset => cases hhigh

end Sys2Proof.Machine

/-! The statements about reset, completion and the machine's invariant (70_reset_and_hazards.md): the state
after reset, what asserting `rst` does, that a command in flight is completed at last, and the invariant
that every step keeps. -/

namespace Sys2Proof.Machine

/-! ### The state after reset -/

/-- Settles O52: every field is written out in `State.reset`, and its buffer lists no byte. -/
theorem resetStateValues : Obligations.ResetStateValues := by
  have hresults : ∀ r : Reg, r.isResult = true → State.reset.results.read r = 0 := by
    intro r _
    cases r <;> decide
  exact ⟨rfl, by decide, by decide, rfl, rfl, rfl, hresults, readReg_bufSz _, rfl, rfl, rfl, rfl,
    fun _ => rfl, rfl⟩

/-! ### The reset input -/

/-- A read while `rst` is asserted returns 0 and does nothing else (70_reset_and_hazards R128). -/
theorem hostRead_rst_asserted (addr : HostAddr) (w : Width) {s : State} (h : s.rst = true) :
    hostRead addr w s = { s with rdata := 0 } := by
  simp [hostRead, h, returnData]

/-- A write while `rst` is asserted does nothing (70_reset_and_hazards R128). -/
theorem hostWrite_rst_asserted (addr : HostAddr) (w : Width) (v : Word) {s : State}
    (h : s.rst = true) : hostWrite addr w v s = s := by
  simp [hostWrite, h]

theorem setRst_assert {s : State} (h : s.rst = false) : setRst true s = enterReset s := by
  simp [setRst, h]

/-- Settles O53: the reset state is written out in `enterReset`, in which accesses have no effect; only
the engine's turn or reset makes a BUSY engine IDLE. -/
theorem resetAbandonsCommand : Obligations.ResetAbandonsCommand := by
  intro s hrel
  rw [setRst_assert hrel]
  refine ⟨rfl, rfl, rfl, rfl, rfl, fun _ => rfl, fun addr w v => hostWrite_rst_asserted addr w v rfl,
    fun addr w => hostRead_rst_asserted addr w rfl, rfl, fun u hb h hi => ?_⟩
  exact ((engineChangesOnlyAsAllowed s u h).2 hb hi).imp_right And.right

/-! ### No stop, and no stale completion -/

/-- Settles O10: the engine's move and the outside world's both answer a next state. -/
theorem stepNeverStops : Obligations.StepNeverStops := by
  intro s
  cases hturn : engineTurn s with
  | true =>
    obtain ⟨r, hmove⟩ := engineMove_eq s
    exact ⟨_, (step_engine hturn).trans hmove⟩
  | false => exact ⟨_, step_outside hturn⟩

/-- Bit 1 of `STATUS` is DONE (10_state R14). -/
theorem statusWord_done (s : State) : (statusWord s).getLsbD 1 = s.done := (statusLayout.1 s).2.1

/-- With `rst` released a `STATUS` read returns `STATUS`. -/
theorem rdata_hostRead_status {s : State} (h : s.rst = false) :
    (hostRead 0x0004#16 .w32 s).rdata = statusWord s := congrArg State.rdata (hostRead_status h)

/-- Settles O50: the write is an acceptance, which leaves BUSY 1; the engine's move is a commit, which
leaves BUSY 0 and DONE 1. -/
theorem noStaleCompletion : Obligations.NoStaleCompletion := by
  intro w s u hi hr
  rw [hostWrite_cmd_idle w hi hr]
  refine ⟨?_, fun hu => ?_⟩
  · rw [rdata_hostRead_status (s := accept w s) hr, statusWord_busy, accept_busy]
  · obtain ⟨r, hmove⟩ := engineMove_eq (accept w s)
    obtain rfl := Host.Outcome.next.inj (hmove.symm.trans hu)
    rw [rdata_hostRead_status ((commit_rst r (accept w s)).trans hr), statusWord_busy, statusWord_done]
    exact ⟨commit_busy r _, commit_done r _⟩

/-! ### Completion -/

@[simp] theorem setRst_agenda (level : Bool) (s : State) : (setRst level s).agenda = s.agenda := by
  rcases setRst_cases level s with ⟨-, -, e⟩ | ⟨-, e⟩ <;> rw [e]
  exact enterReset_agenda s

/-- What an entry of the agenda does puts back at most itself, a `wait` with one poll less (log entry
14). -/
theorem perform_agenda (e : Input) (s : State) :
    (perform e s).agenda = s.agenda ∨ ∃ late polls, e = ⟨late, .wait polls⟩ ∧
      (perform e s).agenda = ⟨late, .wait (polls - 1)⟩ :: s.agenda := by
  obtain ⟨late, action⟩ := e
  cases action with
  | access a =>
    cases a with
    | read addr w => exact .inl (hostRead_agenda addr w s)
    | write addr w v => exact .inl (hostWrite_agenda addr w v s)
  | wait polls =>
    have hpoll : (perform ⟨late, .wait polls⟩ s).agenda = _ :=
      congrArg State.agenda (pollStatus_eq late polls s)
    rw [hpoll]
    dsimp only
    split
    · exact .inr ⟨late, polls, rfl, rfl⟩
    · exact .inl rfl
  | rst level => exact .inl (setRst_agenda level s)

theorem pendingMoves_lt_cons (e : Input) (rest : List Input) :
    pendingMoves rest < pendingMoves (e :: rest) := by
  obtain ⟨late, action⟩ := e
  cases action <;> simp only [pendingMoves] <;> omega

/-- While BUSY a move of the outside world leaves fewer moves pending: a `wait` put back has a poll less,
and one with no poll left lets the engine move first. -/
theorem pendingMoves_outsideMove {s : State} (hb : s.eng = .busy) (hturn : engineTurn s = false) :
    pendingMoves (outsideMove s).agenda < pendingMoves s.agenda := by
  cases hag : s.agenda with
  | nil => simp [engineTurn, busy_of_eng hb, hag] at hturn
  | cons e rest =>
    rw [outsideMove_cons hag]
    rcases perform_agenda e { s with agenda := rest } with h | ⟨late, polls, rfl, h⟩ <;> rw [h]
    · exact pendingMoves_lt_cons e rest
    · have hpolls : polls ≠ 0 := by
        rintro rfl
        rw [engineTurn_wait_zero hb hag] at hturn
        cases hturn
      simp only [pendingMoves]
      omega

/-- No entry of the agenda asserts `rst`. -/
def NoReset (agenda : List Input) : Prop := ∀ e ∈ agenda, e.action ≠ .rst true

/-- A move of the outside world puts nothing on the agenda that asserts `rst`. -/
theorem NoReset.outsideMove {s : State} (h : NoReset s.agenda) : NoReset (outsideMove s).agenda := by
  cases hag : s.agenda with
  | nil => rwa [outsideMove_nil hag]
  | cons e rest =>
    have hrest : NoReset rest := fun x hx => h x (hag ▸ List.mem_cons_of_mem e hx)
    rw [outsideMove_cons hag]
    rcases perform_agenda e { s with agenda := rest } with hkept | ⟨late, polls, -, hkept⟩ <;> rw [hkept]
    · exact hrest
    · exact List.forall_mem_cons.2 ⟨nofun, hrest⟩

/-- Where nothing asserts `rst`, a move of the outside world leaves a command in flight. -/
theorem NoReset.outsideMove_busy {s : State} (h : NoReset s.agenda) (hb : s.eng = .busy) :
    (Machine.outsideMove s).eng = .busy := by
  rcases outsideMove_cases s with ⟨-, e⟩ | ⟨late, rest, ⟨addr, w, -, e⟩ | ⟨addr, w, v, -, e⟩ |
    ⟨polls, -, e⟩ | ⟨level, hag, e⟩⟩ <;> rw [e]
  · exact hb
  · rwa [hostRead_eng]
  · rcases hostWrite_eng addr w v { s with agenda := rest } with he | ⟨-, -, -, hacc⟩
    · rwa [he]
    · rw [hacc, accept_eng]
  · rwa [pollStatus_eq]
  · rcases setRst_cases level { s with agenda := rest } with ⟨rfl, -, -⟩ | ⟨-, e'⟩
    · exact absurd rfl (h _ (hag ▸ List.mem_cons_self))
    · rwa [e']

theorem run_succ {s t : State} (h : step s = .next t) (k : Nat) :
    core.run (k + 1) s = core.run k t := by
  have h' : core.step s = .next t := h
  simp only [Host.Core.run, h']

/-- Settles O11, by induction on the pending moves: the next step ends the command, or it leaves it in
flight with fewer moves pending. -/
theorem busyCommandCompletes : Obligations.BusyCommandCompletes := by
  intro s hb
  induction hn : pendingMoves s.agenda using Nat.strong_induction_on generalizing s with
  | _ n ih =>
    cases hturn : engineTurn s with
    | true =>
      obtain ⟨r, hmove⟩ := engineMove_eq s
      exact ⟨0, s, commit r s, Nat.zero_le n, rfl, hb, (step_engine hturn).trans hmove, commit_eng r s,
        .inl ⟨hturn, commit_done r s⟩, fun _ => hturn⟩
    | false =>
      have hstep := step_outside hturn
      cases hnext : (outsideMove s).eng with
      | idle =>
        have hreset : s.rst = false ∧ (outsideMove s).rst = true :=
          ((engineChangesOnlyAsAllowed s _ hstep).2 hb hnext).resolve_left (by simp [hturn])
        refine ⟨0, s, outsideMove s, Nat.zero_le n, rfl, hb, hstep, hnext, .inr hreset, fun hno => ?_⟩
        rw [NoReset.outsideMove_busy hno hb] at hnext
        cases hnext
      | busy =>
        have hless := pendingMoves_outsideMove hb hturn
        obtain ⟨k, u, t, hk, hrun, hu, hlast, hidle, hend, hno⟩ :=
          ih _ (hn ▸ hless) (outsideMove s) hnext rfl
        exact ⟨k + 1, u, t, by omega, (run_succ hstep k).trans hrun, hu, hlast, hidle, hend,
          fun h => hno (NoReset.outsideMove h)⟩

/-! ### The groups of a command are sound -/

/-- Each group that is filled is sound, and a class code is not 255 (30_encoding R71, R78). -/
structure GroupsSound (g : Groups) : Prop where
  eth : ∀ e, g.eth = some e → EthSound e
  ip : ∀ i, g.ip = some i → IpSound i
  tcp : ∀ t, g.tcp = some t → TcpSound t
  udp : ∀ u, g.udp = some u → InBuffer u.payOff u.payLen
  icmp : ∀ m, g.icmp = some m → m.typeClass = classifyIcmpType m.icmpType
  cls : ∀ c, g.cls = some c → c ≠ 255

/-- If the outcome is `Ok`, the groups it carries are sound. -/
def YieldsSoundGroups (r : Parsed Groups) : Prop := ∀ g, r = .ok g → GroupsSound g

theorem yieldsSoundGroups_err (c : ErrCode) (l : Layer) : YieldsSoundGroups (.err c l) := nofun

theorem GroupsSound.yields {g : Groups} (h : GroupsSound g) : YieldsSoundGroups (.ok g) := by
  rintro _ ⟨⟩
  exact h

theorem EthSound.groups {e : EthGroup} (h : EthSound e) : GroupsSound { eth := some e } :=
  ⟨by rintro _ ⟨⟩; exact h, nofun, nofun, nofun, nofun, nofun⟩

theorem IpSound.groups {i : IpGroup} (h : IpSound i) : GroupsSound { ip := some i } :=
  ⟨nofun, by rintro _ ⟨⟩; exact h, nofun, nofun, nofun, nofun⟩

theorem classGroup_sound {c : BitVec 8} (h : c ≠ 255) : GroupsSound { cls := some c } :=
  ⟨nofun, nofun, nofun, nofun, nofun, by rintro _ ⟨⟩; exact h⟩

/-- The groups of a transport command stay sound on top of two sound layers. -/
theorem GroupsSound.onTop {e : EthGroup} {i : IpGroup} {g : Groups} (h : GroupsSound g)
    (he : EthSound e) (hi : IpSound i) : GroupsSound (g.onTop e i) :=
  ⟨he.groups.eth, hi.groups.ip, h.tcp, h.udp, h.icmp, h.cls⟩

section FittingWindow

variable (B : Nat → Byte) {o n : Nat} (hfit : o + n ≤ Config.bufSize)
include hfit

theorem cmdParseEth_sound : YieldsSoundGroups (cmdParseEth B o n) := by
  unfold cmdParseEth
  split
  next => exact yieldsSoundGroups_err _ _
  next e heth => exact (parseEth_sound hfit heth).1.groups.yields

theorem cmdParseIpv4_sound : YieldsSoundGroups (cmdParseIpv4 B o n) := by
  unfold cmdParseIpv4
  split
  next => exact yieldsSoundGroups_err _ _
  next i hip => exact (parseIpv4_sound hfit hip).1.groups.yields

theorem cmdParseTcp_sound : YieldsSoundGroups (cmdParseTcp B o n) := by
  unfold cmdParseTcp
  split
  next => exact yieldsSoundGroups_err _ _
  next t htcp =>
    exact GroupsSound.yields
      ⟨nofun, nofun, by rintro _ ⟨⟩; exact (parseTcp_sound hfit htcp).1, nofun, nofun, nofun⟩

theorem cmdParseUdp_sound : YieldsSoundGroups (cmdParseUdp B o n) := by
  unfold cmdParseUdp
  split
  next => exact yieldsSoundGroups_err _ _
  next u hudp =>
    exact GroupsSound.yields
      ⟨nofun, nofun, nofun, by rintro _ ⟨⟩; exact (parseUdp_sound hfit hudp).1.trans hfit, nofun, nofun⟩

omit hfit in
theorem cmdParseIcmp_sound (o n : Nat) : YieldsSoundGroups (cmdParseIcmp B o n) := by
  unfold cmdParseIcmp
  split
  next => exact yieldsSoundGroups_err _ _
  next m hicmp =>
    obtain ⟨-, rfl⟩ := parseIcmp_ok hicmp
    exact GroupsSound.yields ⟨nofun, nofun, nofun, nofun, by rintro _ ⟨⟩; rfl, nofun⟩

omit hfit in
theorem addLowerGroups_sound {e : EthGroup} {i : IpGroup} {r : Parsed Groups} (he : EthSound e)
    (hi : IpSound i) (h : YieldsSoundGroups r) : YieldsSoundGroups (addLowerGroups e i r) := by
  cases r with
  | err c l => exact yieldsSoundGroups_err c l
  | ok g => exact ((h g rfl).onTop he hi).yields

omit hfit in
/-- The transport layer runs on the IPv4 payload, which lies inside the buffer. -/
theorem parseTransport_sound {e : EthGroup} {i : IpGroup} (he : EthSound e) (hi : IpSound i) :
    YieldsSoundGroups (parseTransport B e i) := by
  by_cases h1 : i.protoClass = 1
  · rw [parseTransport_icmp h1]
    exact addLowerGroups_sound he hi (cmdParseIcmp_sound B _ _)
  by_cases h3 : i.protoClass = 3
  · rw [parseTransport_tcp h3]
    exact addLowerGroups_sound he hi (cmdParseTcp_sound B hi.payload)
  by_cases h4 : i.protoClass = 4
  · rw [parseTransport_udp h4]
    exact addLowerGroups_sound he hi (cmdParseUdp_sound B hi.payload)
  · rw [parseTransport_none h1 h3 h4]
    exact GroupsSound.yields ⟨he.groups.eth, hi.groups.ip, nofun, nofun, nofun, nofun⟩

/-- Each layer of a frame runs on the payload of the layer below. -/
theorem cmdParseFrame_sound : YieldsSoundGroups (cmdParseFrame B o n) := by
  rcases cmdParseFrame_cases B o n with ⟨c, l, h, -⟩ | ⟨e, heth, hnet⟩
  · rw [h]
    exact yieldsSoundGroups_err c l
  have he : EthSound e := (parseEth_sound hfit heth).1
  rcases hnet with ⟨-, h⟩ | ⟨-, ⟨c, l, -, h⟩ | ⟨i, hip, h⟩⟩ <;> rw [h]
  · exact he.groups.yields
  · exact yieldsSoundGroups_err c l
  · exact parseTransport_sound B he (parseIpv4_sound he.payload hip).1

end FittingWindow

/-- A window that does not fit gives an error, so a parser runs on fitting windows only
(30_encoding R70). -/
theorem onWindow_sound {f : (Nat → Byte) → Nat → Nat → Parsed Groups}
    (hf : ∀ (B : Nat → Byte) {o n : Nat}, o + n ≤ Config.bufSize → YieldsSoundGroups (f B o n))
    (s : State) : YieldsSoundGroups (onWindow f s) := by
  by_cases hfit : s.loff.toNat + s.llen.toNat ≤ Config.bufSize
  · rw [onWindow_fits hfit]
    exact hf _ hfit
  · rw [onWindow_exceeds hfit]
    exact yieldsSoundGroups_err _ _

theorem outcomeOf_sound (i : Instr) (s : State) : YieldsSoundGroups (outcomeOf i s) := by
  cases i with
  | parseEth => exact onWindow_sound cmdParseEth_sound s
  | parseIpv4 => exact onWindow_sound cmdParseIpv4_sound s
  | parseTcp => exact onWindow_sound cmdParseTcp_sound s
  | parseUdp => exact onWindow_sound cmdParseUdp_sound s
  | parseIcmp => exact onWindow_sound (fun B _ _ _ => cmdParseIcmp_sound B _ _) s
  | parseFrame => exact onWindow_sound cmdParseFrame_sound s
  | classifyEtype => exact (classGroup_sound (classifyEtherType_ne_255 _)).yields
  | classifyIpproto =>
    have hcode : ∀ x : BitVec 4, x.setWidth 8 ≠ 255#8 := by decide
    exact (classGroup_sound (hcode _)).yields
  | classifyIcmptype =>
    have hcode : ∀ x : BitVec 5, x.setWidth 8 ≠ 255#8 := by decide
    exact (classGroup_sound (hcode _)).yields

/-! ### Sound result registers -/

theorem getD_of_isSome {α : Type} {x : Option α} {d : α} {P : α → Prop} (h : ∀ a, x = some a → P a)
    (hx : x.isSome = true) : P (x.getD d) := by
  obtain ⟨a, rfl⟩ := Option.isSome_iff_exists.1 hx
  exact h a rfl

theorem getD_of_default {α : Type} {x : Option α} {d : α} {P : α → Prop} (h : ∀ a, x = some a → P a)
    (hd : P d) : P (x.getD d) := by
  cases x with
  | none => exact hd
  | some a => exact h a rfl

/-- A sound Ethernet group's class is the classifier's, which never gives 255 (30_encoding R78). -/
theorem EthSound.class_ne_255 {e : EthGroup} (h : EthSound e) : e.etypeClass ≠ 255 :=
  h.cls ▸ classifyEtherType_ne_255 _

/-- The registers an `Ok` outcome leaves are sound when its groups are (30_encoding R71). -/
theorem GroupsSound.results {g : Groups} (h : GroupsSound g)
    (hv : (Results.ofGroups g).valid.word ∈ legalValid) : ResultsSound (.ofGroups g) where
  valid := hv
  zero := ofGroups_zeroUnlessValid g
  eth := getD_of_isSome h.eth
  ip := getD_of_isSome h.ip
  tcp := getD_of_isSome h.tcp
  udp := getD_of_isSome h.udp
  icmp := getD_of_isSome h.icmp
  codes := ⟨getD_of_default h.cls (by decide),
    getD_of_default (fun e he => (h.eth e he).class_ne_255) (by decide)⟩

theorem zero_resultsSound : ResultsSound Results.zero :=
  ⟨by decide, zero_zeroUnlessValid, nofun, nofun, nofun, nofun, nofun, by decide, by decide⟩

/-! ### The invariant after reset -/

/-- The reset state meets the invariant, whatever the level of `rst`, the outside world's own data and
the draw in force. -/
theorem invariant_reset (rst : Bool) (agenda : List Input) (rdata : Word) (draws resets : Nat) :
    Invariant { State.reset with
      rst := rst, agenda := agenda, rdata := rdata, draws := draws, resets := resets } where
  engine :=
    { held := by rintro ⟨⟩; rfl
      cleared := nofun
      latched := nofun
      errors := List.mem_cons_self
      failed := fun _ => rfl }
  results := zero_resultsSound
  buffer := Memory.nil_wf

/-- Settles O55: the state after reset is the reset state with `rst` released. -/
theorem resetMeetsInvariant : Obligations.ResetMeetsInvariant := invariant_reset false [] 0 0 0

theorem HeldInReset.invariant {s : State} (h : HeldInReset s) : Invariant s := by
  rw [show s = _ from h]
  exact invariant_reset true s.agenda s.rdata s.draws s.resets

theorem HeldInReset.not_busy {s : State} (h : HeldInReset s) : s.busy = false := congrArg State.busy h

/-! ### A commit keeps the invariant -/

/-- What the invariant asks of the outcome of a command. -/
structure LegalOutcome (r : Parsed Groups) : Prop where
  fails : FailsLegally r
  fills : FillsLegalGroups r
  sound : YieldsSoundGroups r

/-- The engine's move is the commit of a legal outcome. -/
theorem engineMove_legal (s : State) :
    ∃ r, engineMove s = .next (commit r s) ∧ LegalOutcome r := by
  cases hd : decode s.lop with
  | command i =>
    exact ⟨outcomeOf i s, (engineMove_command hd).trans (exec_eq i s),
      outcomeOf_failsLegally i s, outcomeOf_fillsLegalGroups i s, outcomeOf_sound i s⟩
  | illegal why =>
    exact ⟨_, engineMove_illegal ⟨why, hd⟩, failsLegally_err (by decide), fillsLegalGroups_err _ _,
      yieldsSoundGroups_err _ _⟩

theorem LegalOutcome.results {r : Parsed Groups} (h : LegalOutcome r) (s : State) :
    ResultsSound (commit r s).results := by
  cases r with
  | ok g => exact (h.sound g rfl).results (h.fills g rfl)
  | err c l => exact zero_resultsSound

/-- After a commit with an error no result is left (60_exceptions R119). -/
theorem commit_results_of_err (r : Parsed Groups) (s : State) (h : (commit r s).err ≠ 0) :
    (commit r s).results = Results.zero := by
  cases r with
  | ok g => exact absurd rfl h
  | err c l => rfl

/-- No command is in flight while `rst` is asserted, so a commit keeps the invariant. -/
theorem Invariant.commit {s : State} {r : Parsed Groups} (h : Invariant s) (hb : s.busy = true)
    (hr : LegalOutcome r) : Invariant (commit r s) where
  engine :=
    { held := fun hrst => by
        have hidle := (h.engine.held ((commit_rst r s).symm.trans hrst)).not_busy
        rw [hb] at hidle
        cases hidle
      cleared := fun hbusy => by simp at hbusy
      latched := fun hbusy => by simp at hbusy
      errors := commit_legalErrors hr.fails s
      failed := commit_results_of_err r s }
  results := hr.results s
  buffer := by rw [commit_buf]; exact h.buffer

/-! ### The outside world keeps the invariant -/

/-- Only an acceptance and reset change the error, and they clear it. -/
theorem StatusMove.error {s t : State} (h : StatusMove s t) :
    (t.err = s.err ∧ t.errLayer = s.errLayer) ∨ (t.err = 0 ∧ t.errLayer = 0) := by
  cases h with
  | kept hkept => exact .inl ⟨hkept.err, hkept.errLayer⟩
  | status | ctrl => exact .inl ⟨rfl, rfl⟩
  | accepted | reset => exact .inr ⟨rfl, rfl⟩

/-- Only a commit sets DONE. -/
theorem StatusMove.done {s t : State} (h : StatusMove s t) (hdone : t.done = true) :
    s.done = true := by
  cases h with
  | kept hkept => exact hkept.done ▸ hdone
  | status => exact ((Bool.and_eq_true _ _).mp hdone).1
  | ctrl => exact hdone
  | accepted | reset => cases hdone

/-- A move of the outside world keeps the canonical form of the buffer. -/
theorem outsideMove_wf {s : State} (h : s.buf.wf) : (outsideMove s).buf.wf := by
  rcases outsideMove_cases s with ⟨-, e⟩ | ⟨late, rest, ⟨addr, w, -, e⟩ | ⟨addr, w, v, -, e⟩ |
    ⟨polls, -, e⟩ | ⟨level, -, e⟩⟩ <;> rw [e]
  · exact h
  · obtain ⟨d, k, e' | ⟨-, e'⟩⟩ := hostRead_eq addr w { s with agenda := rest } <;> rwa [e']
  · exact hostWrite_wf addr w v h
  · rwa [pollStatus_eq]
  · rcases setRst_cases level { s with agenda := rest } with ⟨-, -, e'⟩ | ⟨-, e'⟩ <;> rw [e']
    · exact Memory.nil_wf
    · exact h

theorem enterReset_heldInReset (s : State) : HeldInReset (enterReset s) := rfl

/-- The outside world's own data are no part of the reset state. -/
theorem HeldInReset.outside {s : State} (h : HeldInReset s) (agenda : List Input) (rdata : Word) :
    HeldInReset { s with agenda := agenda, rdata := rdata } := by
  unfold HeldInReset
  exact congrArg (fun u : State => { u with agenda := agenda, rdata := rdata }) h

/-- While `rst` is asserted the outside world leaves the block in its reset state. -/
theorem outsideMove_held {s : State} (h : s.rst = true → HeldInReset s)
    (hrst : (outsideMove s).rst = true) : HeldInReset (outsideMove s) := by
  rcases outsideMove_cases s with ⟨-, e⟩ | ⟨late, rest, ⟨addr, w, -, e⟩ | ⟨addr, w, v, -, e⟩ |
    ⟨polls, -, e⟩ | ⟨level, -, e⟩⟩ <;> rw [e] at hrst ⊢
  · exact h hrst
  · rw [hostRead_rst] at hrst
    rw [hostRead_rst_asserted addr w hrst]
    exact (h hrst).outside rest 0
  · rw [hostWrite_rst] at hrst
    rw [hostWrite_rst_asserted addr w v hrst]
    exact (h hrst).outside rest s.rdata
  · rw [pollStatus_eq] at hrst ⊢
    exact (h hrst).outside _ _
  · rcases setRst_cases level { s with agenda := rest } with ⟨-, -, e'⟩ | ⟨hkept, e'⟩ <;>
      rw [e'] at hrst ⊢
    · exact enterReset_heldInReset _
    · obtain rfl : level = true := hrst
      have hs : s.rst = true := hkept rfl
      rw [← hs]
      exact (h hs).outside rest s.rdata

/-- With a command in flight after it, a move of the outside world was an acceptance or found it in
flight (10_state R11). -/
theorem outsideMove_busy_cases {s : State} (hb : (outsideMove s).busy = true) :
    s.busy = true ∨ ∃ w rest, outsideMove s = accept w { s with agenda := rest } := by
  have hbusy : (outsideMove s).eng = .busy := (busy_iff _).1 hb
  rcases outsideMove_eng_cases s with he | ⟨_, w, rest, -, -, hacc⟩ | ⟨-, -, hidle⟩
  · exact .inl (busy_of_eng (he ▸ hbusy))
  · exact .inr ⟨w, rest, hacc⟩
  · rw [hbusy] at hidle
    cases hidle

/-- A command accepted or still in flight has a cleared status (30_encoding R68). -/
theorem outsideMove_cleared {s : State} (h : EngineInv s) (hb : (outsideMove s).busy = true) :
    (outsideMove s).done = false ∧ (outsideMove s).err = 0 ∧ (outsideMove s).errLayer = 0 := by
  rcases outsideMove_busy_cases hb with hs | ⟨w, rest, hacc⟩
  · obtain ⟨hdone, herr, hlayer⟩ := h.cleared hs
    have hmove := outsideMove_statusMove s
    refine ⟨Bool.eq_false_iff.2 fun hset => ?_, ?_⟩
    · rw [hmove.done hset] at hdone
      cases hdone
    · rcases hmove.error with ⟨he, hl⟩ | hclear
      · exact ⟨he.trans herr, hl.trans hlayer⟩
      · exact hclear
  · rw [hacc]
    exact ⟨rfl, rfl, rfl⟩

/-- Acceptance latches the input registers, which then keep their values (30_encoding R68, 10_state
R49). -/
theorem outsideMove_latched {s : State} (h : EngineInv s) (hb : (outsideMove s).busy = true)
    (hrel : (outsideMove s).rst = false) :
    (outsideMove s).loff = (outsideMove s).inOff ∧ (outsideMove s).llen = (outsideMove s).inLen ∧
      (outsideMove s).larg = (outsideMove s).classArg := by
  rcases outsideMove_busy_cases hb with hs | ⟨w, rest, hacc⟩
  · obtain ⟨hoff, hlen, harg⟩ := h.latched hs
    have hkept := (outsideMove_inputsOf ((busy_iff s).1 hs)).resolve_right (by simp [hrel])
    simp only [inputsOf, Prod.mk.injEq] at hkept
    obtain ⟨-, -, hinOff, hinLen, hclassArg, -, hloff, hllen, hlarg⟩ := hkept
    exact ⟨hloff.trans (hoff.trans hinOff.symm), hllen.trans (hlen.trans hinLen.symm),
      hlarg.trans (harg.trans hclassArg.symm)⟩
  · rw [hacc]
    exact ⟨rfl, rfl, rfl⟩

theorem outsideMove_legalErrors {s : State} (h : EngineInv s) :
    ((outsideMove s).err, (outsideMove s).errLayer) ∈ legalErrors := by
  rcases (outsideMove_statusMove s).error with ⟨he, hl⟩ | ⟨he, hl⟩ <;> rw [he, hl]
  · exact h.errors
  · exact List.mem_cons_self

/-- If `rst` is asserted after the move, the block is in its reset state; if not, the results are kept,
and the move changes the error and the engine only by an acceptance. -/
theorem Invariant.outsideMove {s : State} (h : Invariant s) : Invariant (outsideMove s) := by
  cases hrst : (Machine.outsideMove s).rst with
  | true => exact (outsideMove_held h.engine.held hrst).invariant
  | false =>
    have hresults : (Machine.outsideMove s).results = s.results :=
      (outsideMove_results s).resolve_right (by simp [hrst])
    refine ⟨⟨fun hset => ?_, outsideMove_cleared h.engine, fun hb => outsideMove_latched h.engine hb hrst,
      outsideMove_legalErrors h.engine, fun hfail => ?_⟩, hresults ▸ h.results, outsideMove_wf h.buffer⟩
    · rw [hrst] at hset
      cases hset
    · rcases (outsideMove_statusMove s).error with ⟨he, -⟩ | ⟨he, -⟩
      · exact hresults.trans (h.engine.failed (he ▸ hfail))
      · exact absurd he hfail

/-- Settles O56: a step is the commit of a legal outcome or a move of the outside world. -/
theorem stepKeepsInvariant : Obligations.StepKeepsInvariant := by
  intro s t hinv h
  rcases step_cases h with ⟨hturn, hb, -⟩ | ⟨-, rfl⟩
  · obtain ⟨r, hmove, hr⟩ := engineMove_legal s
    obtain rfl := Host.Outcome.next.inj (hmove.symm.trans ((step_engine hturn).symm.trans h))
    exact hinv.commit hb hr
  · exact hinv.outsideMove

end Sys2Proof.Machine
